-- ==== Sys2Proof/Word.lean ====
section
/-! DEFINITION. The word types `uN` of 00_scope.md R10. All arithmetic on them is `BitVec`'s, which is
modulo 2^N and unsigned as R10 says; lengths and addresses in range checks are `Nat` (R10). -/

namespace Sys2Proof

/-- `u8`, one byte of DMEM (R10, R70). -/
abbrev Byte := BitVec 8

/-- `u32`: a host register, a descriptor word, an address (R7: ADDR_W = HOST_REG_W = 32). -/
abbrev Word := BitVec 32

/-- `u64`, the word of the 64-bit algorithms (R10). -/
abbrev Word64 := BitVec 64

/-- A byte string of 00_scope.md R12. -/
abbrev Bytes := List Byte

end Sys2Proof
end

