-- ==== Sys2Proof/Machine/Codec.lean ====
section
/-! DEFINITION. Byte strings and word operators of 00_scope.md section 5: slices, the little- and
big-endian reads and writes of R12, the rotations of R11, and cutting a string into blocks. -/

namespace Sys2Proof.Machine

/-- `s[o..o+n)` of R12. Past the end of `s` there is nothing to take. -/
def slice (s : Bytes) (o n : Nat) : Bytes := (s.drop o).take n

/-- `zeros(n)` of R12. -/
def zeros (n : Nat) : Bytes := List.replicate n 0

/-- The number whose bits 8k+7..8k are byte `k` of the string. -/
def natLE : Bytes → Nat
  | [] => 0
  | b :: bs => b.toNat + 256 * natLE bs

/-- The `n` low bytes of a number, least significant first. -/
def natBytesLE : Nat → Nat → Bytes
  | 0, _ => []
  | n + 1, v => BitVec.ofNat 8 v :: natBytesLE n (v / 256)

/-- `LE_N(s, o)` of R12. -/
def readLE (w : Nat) (s : Bytes) (o : Nat) : BitVec w := BitVec.ofNat w (natLE (slice s o (w / 8)))

/-- `BE_N(s, o)` of R12. -/
def readBE (w : Nat) (s : Bytes) (o : Nat) : BitVec w :=
  BitVec.ofNat w (natLE (slice s o (w / 8)).reverse)

/-- `le_bytes_N(v)` of R12. -/
def bytesLE {w : Nat} (v : BitVec w) : Bytes := natBytesLE (w / 8) v.toNat

/-- `be_bytes_N(v)` of R12. -/
def bytesBE {w : Nat} (v : BitVec w) : Bytes := (bytesLE v).reverse

/-- `rotl_N(x, r)` of R11, for `0 ≤ r < N`. -/
def rotl {w : Nat} (x : BitVec w) (r : Nat) : BitVec w :=
  if r = 0 then x else (x <<< r) ||| (x >>> (w - r))

/-- `rotr_N(x, r)` of R11, for `0 ≤ r < N`. -/
def rotr {w : Nat} (x : BitVec w) (r : Nat) : BitVec w :=
  if r = 0 then x else (x >>> r) ||| (x <<< (w - r))

/-- `x ^ (x >> r)`, the xor-shift of the avalanche steps (R310, R313, R321, R327, R351). -/
def xorShift {w : Nat} (x : BitVec w) (r : Nat) : BitVec w := x ^^^ (x >>> r)

/-- Word `i` of a table or a word array. -/
def wordAt {w : Nat} (l : List (BitVec w)) (i : Nat) : BitVec w := l.getD i 0

/-- The first `n` pieces of `B` bytes of a string, in order; the last may be shorter. -/
def blocks (B : Nat) : Nat → Bytes → List Bytes
  | 0, _ => []
  | n + 1, s => s.take B :: blocks B n (s.drop B)

/-- A string continued with zero bytes to length `n`. -/
def zeroPad (n : Nat) (s : Bytes) : Bytes := s ++ zeros (n - s.length)

/-- `ceil(n / d)`. -/
def ceilDiv (n d : Nat) : Nat := (n + d - 1) / d

end Sys2Proof.Machine
end

