-- ==== Sys2Proof/Config.lean ====
section
/-! DEFINITION. The parameters of 00_scope.md R7, the constants of 10_state.md R45 and R46, and the
values that the spec leaves free (93_implementation_defined.md section 1). -/

namespace Sys2Proof.Config

/-- MEM_SIZE at `State.reset` (R7 leaves it OPEN; 95_test_vectors.md uses 4096).
DESIGN CHOICE, log 1. A step never reads this constant: it reads `State.memSize`. -/
def memSize : Nat := 4096

/-- The MEM_SIZE values R7 admits: a multiple of 32 with 32 ≤ MEM_SIZE ≤ 2^32. -/
def legalMemSize (n : Nat) : Bool := n % 32 == 0 && 32 ≤ n && n ≤ 2 ^ 32

/-- DMEM_INIT (70 R480, U8) at `State.reset`: what an unlisted DMEM byte reads as.
DESIGN CHOICE, unsafe, log 2. -/
def dmemInit : Byte := 0

/-- NCTX, the number of context slots (R7, R40). -/
abbrev nctx : Nat := 8

/-- DESC_BYTES, size and alignment of a descriptor (R7). -/
abbrev descBytes : Nat := 32

/-- MAX_TOTAL, the most bytes a slot may absorb (R7, 40 R148). -/
def maxTotal : Nat := 2 ^ 61 - 1

/-- The constant register ID, "HSH1" (R45). -/
def idValue : Word := 0x48534831#32

/-- The constant register CAPS: algorithm codes 1 to 14 (R46). -/
def capsValue : Word := 0x00007FFE#32

/-- HOST_BASE, the platform's base address of the register block (R38, U12): left OPEN. Log 11. -/
opaque hostBase : Nat

/-- FREE VALUE: draw `n` of the byte at address `a`, where the spec says "any value" (R87, R482, R492;
U5, U6, U9). `n` is the counter `State.draws`. Logs 5, 6 and 8. -/
opaque anyByte : Nat → Nat → Byte

/-- FREE VALUE: whether poll `n` of CMDPTR while BUSY = 1 answers the address of the command in progress
rather than that of the next (R492, U7). `n` is the counter `State.polls`. Log 7. -/
opaque anyEarly : Nat → Bool

end Sys2Proof.Config
end

