-- ==== Sys2Proof/Syntax.lean ====
section
/-! DEFINITION. The commands of HASHCORE as syntax: operation and algorithm names (30_encoding.md R104,
R105), the operand fields of a descriptor (R101, R102), one constructor of `Instr` per row of
opcode_table.json, and the fault codes (60_exceptions.md R431). -/

namespace Sys2Proof

/-- The operations of R104. -/
inductive Op where
  | nop | hash | verify | init | update | final
  | rotl | rotr | bswap | mul128
  | jump | jmatch | jnmatch | stop
  deriving DecidableEq, Repr

/-- The algorithms of R105 (codes 1 to 14, in this order). -/
inductive Alg where
  | md5 | sha1 | sha256 | sha384 | blake2b | blake3 | siphash
  | murmur3_32 | murmur3_128 | xxh32 | xxh64 | city64 | city128 | farm64
  deriving DecidableEq, Repr

/-- The fault codes of 60_exceptions.md R431. -/
inductive ErrCode where
  | fetchAlign | fetchRange | illegalOp | illegalAlg | reserved | param
  | targetAlign | ctxState | ctxAlg | range | length | abort
  deriving DecidableEq, Repr

/-- The fields of a descriptor other than OP and ALG (R101, R102). Which of them a command uses and which
must be 0 is R107 and R110, checked by the command itself (R109), so a command keeps them all. Log 4. -/
structure Operands where
  /-- W0[15:13], context slot number. -/
  ctx : BitVec 3 := 0
  /-- W0[23:16], per-operation parameter. -/
  param : BitVec 8 := 0
  /-- W0[31:24], BLAKE2b key length. -/
  klen : BitVec 8 := 0
  /-- W1, input address; TARGET of a jump. -/
  src : Word := 0
  /-- W2, number of input bytes. -/
  len : Word := 0
  /-- W3, output address; address of the expected digest of VERIFY. -/
  dst : Word := 0
  /-- W4, address of the key, the seed or the second multiplicand. -/
  aux : Word := 0
  /-- W5, BLAKE3 output length. -/
  xlen : Word := 0
  /-- W6, reserved. -/
  rsv0 : Word := 0
  /-- W7, reserved. -/
  rsv1 : Word := 0
  deriving DecidableEq, Repr

/-- The 56 commands: one constructor per row of opcode_table.json. -/
inductive Instr where
  /-- `hash.md5`, R176. -/
  | hashMd5 (o : Operands)
  /-- `hash.sha1`, R186. -/
  | hashSha1 (o : Operands)
  /-- `hash.sha256`, R206. -/
  | hashSha256 (o : Operands)
  /-- `hash.sha384`, R214. -/
  | hashSha384 (o : Operands)
  /-- `hash.blake2b`, R239. -/
  | hashBlake2b (o : Operands)
  /-- `hash.blake3`, R271. -/
  | hashBlake3 (o : Operands)
  /-- `hash.siphash`, R295. -/
  | hashSiphash (o : Operands)
  /-- `hash.murmur3_32`, R317. -/
  | hashMurmur3_32 (o : Operands)
  /-- `hash.murmur3_128`, R318. -/
  | hashMurmur3_128 (o : Operands)
  /-- `hash.xxh32`, R330. -/
  | hashXxh32 (o : Operands)
  /-- `hash.xxh64`, R335. -/
  | hashXxh64 (o : Operands)
  /-- `hash.city64`, R375. -/
  | hashCity64 (o : Operands)
  /-- `hash.city128`, R376. -/
  | hashCity128 (o : Operands)
  /-- `hash.farm64`, R377. -/
  | hashFarm64 (o : Operands)
  /-- `verify.md5`, R177. -/
  | verifyMd5 (o : Operands)
  /-- `verify.sha1`, R187. -/
  | verifySha1 (o : Operands)
  /-- `verify.sha256`, R207. -/
  | verifySha256 (o : Operands)
  /-- `verify.sha384`, R215. -/
  | verifySha384 (o : Operands)
  /-- `verify.blake2b`, R240. -/
  | verifyBlake2b (o : Operands)
  /-- `verify.blake3`, R272. -/
  | verifyBlake3 (o : Operands)
  /-- `init.md5`, R178. -/
  | initMd5 (o : Operands)
  /-- `init.sha1`, R188. -/
  | initSha1 (o : Operands)
  /-- `init.sha256`, R208. -/
  | initSha256 (o : Operands)
  /-- `init.sha384`, R216. -/
  | initSha384 (o : Operands)
  /-- `init.blake2b`, R241. -/
  | initBlake2b (o : Operands)
  /-- `init.blake3`, R273. -/
  | initBlake3 (o : Operands)
  /-- `init.siphash`, R297. -/
  | initSiphash (o : Operands)
  /-- `init.xxh32`, R332. -/
  | initXxh32 (o : Operands)
  /-- `init.xxh64`, R337. -/
  | initXxh64 (o : Operands)
  /-- `update.md5`, R179. -/
  | updateMd5 (o : Operands)
  /-- `update.sha1`, R189. -/
  | updateSha1 (o : Operands)
  /-- `update.sha256`, R209. -/
  | updateSha256 (o : Operands)
  /-- `update.sha384`, R217. -/
  | updateSha384 (o : Operands)
  /-- `update.blake2b`, R242. -/
  | updateBlake2b (o : Operands)
  /-- `update.blake3`, R274. -/
  | updateBlake3 (o : Operands)
  /-- `update.siphash`, R298. -/
  | updateSiphash (o : Operands)
  /-- `update.xxh32`, R333. -/
  | updateXxh32 (o : Operands)
  /-- `update.xxh64`, R338. -/
  | updateXxh64 (o : Operands)
  /-- `final.md5`, R180. -/
  | finalMd5 (o : Operands)
  /-- `final.sha1`, R190. -/
  | finalSha1 (o : Operands)
  /-- `final.sha256`, R210. -/
  | finalSha256 (o : Operands)
  /-- `final.sha384`, R218. -/
  | finalSha384 (o : Operands)
  /-- `final.blake2b`, R243. -/
  | finalBlake2b (o : Operands)
  /-- `final.blake3`, R275. -/
  | finalBlake3 (o : Operands)
  /-- `final.siphash`, R299. -/
  | finalSiphash (o : Operands)
  /-- `final.xxh32`, R334. -/
  | finalXxh32 (o : Operands)
  /-- `final.xxh64`, R339. -/
  | finalXxh64 (o : Operands)
  /-- `rotl`, R390. -/
  | rotl (o : Operands)
  /-- `rotr`, R391. -/
  | rotr (o : Operands)
  /-- `bswap`, R392. -/
  | bswap (o : Operands)
  /-- `mul128`, R393. -/
  | mul128 (o : Operands)
  /-- `jump`, R410. -/
  | jump (o : Operands)
  /-- `jmatch`, R411. -/
  | jmatch (o : Operands)
  /-- `jnmatch`, R412. -/
  | jnmatch (o : Operands)
  /-- `nop`, R413. -/
  | nop (o : Operands)
  /-- `stop`, R414. -/
  | stop (o : Operands)
  deriving DecidableEq, Repr

namespace Op

/-- OPs 0x01 to 0x05 are the hash operations (R104). -/
def isHashOp : Op → Bool
  | .hash | .verify | .init | .update | .final => true
  | _ => false

end Op

namespace Instr

/-- A command's operation. -/
def op : Instr → Op
  | .hashMd5 _ => .hash
  | .hashSha1 _ => .hash
  | .hashSha256 _ => .hash
  | .hashSha384 _ => .hash
  | .hashBlake2b _ => .hash
  | .hashBlake3 _ => .hash
  | .hashSiphash _ => .hash
  | .hashMurmur3_32 _ => .hash
  | .hashMurmur3_128 _ => .hash
  | .hashXxh32 _ => .hash
  | .hashXxh64 _ => .hash
  | .hashCity64 _ => .hash
  | .hashCity128 _ => .hash
  | .hashFarm64 _ => .hash
  | .verifyMd5 _ => .verify
  | .verifySha1 _ => .verify
  | .verifySha256 _ => .verify
  | .verifySha384 _ => .verify
  | .verifyBlake2b _ => .verify
  | .verifyBlake3 _ => .verify
  | .initMd5 _ => .init
  | .initSha1 _ => .init
  | .initSha256 _ => .init
  | .initSha384 _ => .init
  | .initBlake2b _ => .init
  | .initBlake3 _ => .init
  | .initSiphash _ => .init
  | .initXxh32 _ => .init
  | .initXxh64 _ => .init
  | .updateMd5 _ => .update
  | .updateSha1 _ => .update
  | .updateSha256 _ => .update
  | .updateSha384 _ => .update
  | .updateBlake2b _ => .update
  | .updateBlake3 _ => .update
  | .updateSiphash _ => .update
  | .updateXxh32 _ => .update
  | .updateXxh64 _ => .update
  | .finalMd5 _ => .final
  | .finalSha1 _ => .final
  | .finalSha256 _ => .final
  | .finalSha384 _ => .final
  | .finalBlake2b _ => .final
  | .finalBlake3 _ => .final
  | .finalSiphash _ => .final
  | .finalXxh32 _ => .final
  | .finalXxh64 _ => .final
  | .rotl _ => .rotl
  | .rotr _ => .rotr
  | .bswap _ => .bswap
  | .mul128 _ => .mul128
  | .jump _ => .jump
  | .jmatch _ => .jmatch
  | .jnmatch _ => .jnmatch
  | .nop _ => .nop
  | .stop _ => .stop

/-- A command's algorithm; none for the non-hash operations (R105). -/
def alg : Instr → Option Alg
  | .hashMd5 _ => some .md5
  | .hashSha1 _ => some .sha1
  | .hashSha256 _ => some .sha256
  | .hashSha384 _ => some .sha384
  | .hashBlake2b _ => some .blake2b
  | .hashBlake3 _ => some .blake3
  | .hashSiphash _ => some .siphash
  | .hashMurmur3_32 _ => some .murmur3_32
  | .hashMurmur3_128 _ => some .murmur3_128
  | .hashXxh32 _ => some .xxh32
  | .hashXxh64 _ => some .xxh64
  | .hashCity64 _ => some .city64
  | .hashCity128 _ => some .city128
  | .hashFarm64 _ => some .farm64
  | .verifyMd5 _ => some .md5
  | .verifySha1 _ => some .sha1
  | .verifySha256 _ => some .sha256
  | .verifySha384 _ => some .sha384
  | .verifyBlake2b _ => some .blake2b
  | .verifyBlake3 _ => some .blake3
  | .initMd5 _ => some .md5
  | .initSha1 _ => some .sha1
  | .initSha256 _ => some .sha256
  | .initSha384 _ => some .sha384
  | .initBlake2b _ => some .blake2b
  | .initBlake3 _ => some .blake3
  | .initSiphash _ => some .siphash
  | .initXxh32 _ => some .xxh32
  | .initXxh64 _ => some .xxh64
  | .updateMd5 _ => some .md5
  | .updateSha1 _ => some .sha1
  | .updateSha256 _ => some .sha256
  | .updateSha384 _ => some .sha384
  | .updateBlake2b _ => some .blake2b
  | .updateBlake3 _ => some .blake3
  | .updateSiphash _ => some .siphash
  | .updateXxh32 _ => some .xxh32
  | .updateXxh64 _ => some .xxh64
  | .finalMd5 _ => some .md5
  | .finalSha1 _ => some .sha1
  | .finalSha256 _ => some .sha256
  | .finalSha384 _ => some .sha384
  | .finalBlake2b _ => some .blake2b
  | .finalBlake3 _ => some .blake3
  | .finalSiphash _ => some .siphash
  | .finalXxh32 _ => some .xxh32
  | .finalXxh64 _ => some .xxh64
  | .rotl _ => none
  | .rotr _ => none
  | .bswap _ => none
  | .mul128 _ => none
  | .jump _ => none
  | .jmatch _ => none
  | .jnmatch _ => none
  | .nop _ => none
  | .stop _ => none

/-- A command's operand fields. -/
def operands : Instr → Operands
  | .hashMd5 o => o
  | .hashSha1 o => o
  | .hashSha256 o => o
  | .hashSha384 o => o
  | .hashBlake2b o => o
  | .hashBlake3 o => o
  | .hashSiphash o => o
  | .hashMurmur3_32 o => o
  | .hashMurmur3_128 o => o
  | .hashXxh32 o => o
  | .hashXxh64 o => o
  | .hashCity64 o => o
  | .hashCity128 o => o
  | .hashFarm64 o => o
  | .verifyMd5 o => o
  | .verifySha1 o => o
  | .verifySha256 o => o
  | .verifySha384 o => o
  | .verifyBlake2b o => o
  | .verifyBlake3 o => o
  | .initMd5 o => o
  | .initSha1 o => o
  | .initSha256 o => o
  | .initSha384 o => o
  | .initBlake2b o => o
  | .initBlake3 o => o
  | .initSiphash o => o
  | .initXxh32 o => o
  | .initXxh64 o => o
  | .updateMd5 o => o
  | .updateSha1 o => o
  | .updateSha256 o => o
  | .updateSha384 o => o
  | .updateBlake2b o => o
  | .updateBlake3 o => o
  | .updateSiphash o => o
  | .updateXxh32 o => o
  | .updateXxh64 o => o
  | .finalMd5 o => o
  | .finalSha1 o => o
  | .finalSha256 o => o
  | .finalSha384 o => o
  | .finalBlake2b o => o
  | .finalBlake3 o => o
  | .finalSiphash o => o
  | .finalXxh32 o => o
  | .finalXxh64 o => o
  | .rotl o => o
  | .rotr o => o
  | .bswap o => o
  | .mul128 o => o
  | .jump o => o
  | .jmatch o => o
  | .jnmatch o => o
  | .nop o => o
  | .stop o => o

end Instr

end Sys2Proof
end

