-- ==== Sys2Proof/Machine/State.lean ====
section
/-! DEFINITION. The architectural state of HASHCORE (10_state.md R32), as plain data, its reset value
(70_reset_and_hazards.md R480), and the reasons an access from outside can stop. -/

namespace Sys2Proof.Machine

/-- DMEM (20_memory.md R70): the listed bytes by rising address; every other byte reads as
`Config.dmemInit` (log 2). `Memory.wf` is the canonical form. -/
abbrev Memory := List Host.Cell

/-- The lifecycle of a context slot (R42). -/
inductive SlotState where
  | idle | active | finalized
  deriving DecidableEq, Repr

/-- The record `p` of decoded parameters (40_common.md R145). A field the algorithm does not use is 0
(log 15). `mode` is `p.seeded` of Murmur3 and xxHash and `p.mode` of CityHash and FarmHash. -/
structure Params where
  outlen : Nat := 0
  klen : Nat := 0
  c : Nat := 0
  d : Nat := 0
  mode : Nat := 0
  deriving DecidableEq, Repr

/-- A context slot (R41). The fields after `state` mean something only when it is not IDLE. -/
structure Slot where
  state : SlotState
  alg : Alg
  prm : Params
  aux : Bytes
  msg : Bytes
  deriving DecidableEq, Repr

/-- A slot after reset: IDLE (R480). The other fields are unspecified and unobservable there (U10); the
values here are a DESIGN CHOICE, log 3. -/
def Slot.reset : Slot := ⟨.idle, .md5, {}, [], []⟩

/-- The complete state (R32), the parameter MEM_SIZE, and three fields of the model's own
(`spoiled`, `draws`, `polls`) that carry the values the spec leaves free. -/
structure State where
  /-- MEM_SIZE (R7). A parameter: no step changes it. Log 1. -/
  memSize : Nat
  /-- DMEM (R70). -/
  dmem : Memory
  /-- CTRL.IRQ_EN (R47). -/
  irqEn : Bool
  /-- STATUS.BUSY (R48). -/
  busy : Bool
  /-- STATUS.DONE (R48). -/
  done : Bool
  /-- STATUS.ERR (R48). -/
  err : Bool
  /-- STATUS.MATCH (R36). -/
  matched : Bool
  /-- STATUS.ERRCODE (R48). -/
  errCode : BitVec 8
  /-- CMDPTR (R33). -/
  cmdPtr : Word
  /-- ERRPTR (R50). -/
  errPtr : Word
  /-- ABORT_PEND (R44). -/
  abortPend : Bool
  /-- `ctx[0..7]` (R40). -/
  slots : Vector Slot Config.nctx
  /-- MODEL's own: the DMEM addresses, rising, that hold "any value" because the host wrote them while
  BUSY = 1 (R492, U5). Log 5. -/
  spoiled : List Nat
  /-- MODEL's own: index of the next draw of free bytes. Log 5. -/
  draws : Nat
  /-- MODEL's own: index of the next free choice of a CMDPTR read while BUSY = 1. Log 7. -/
  polls : Nat
  deriving DecidableEq, Repr

/-- A stop with no next state. A command never stops so: every fault of 60_exceptions.md is recorded in
STATUS and ERRPTR and the machine goes on to a next state (R432). -/
inductive Fault where
  /-- Raised by a host access to a DMEM address at or above MEM_SIZE, which R71 says does not exist. SAFE:
  the spec gives such an access no effect. Log 12. -/
  | noSuchAddress
  deriving DecidableEq, Repr

/-- A request the model does not take. -/
inductive Refusal where
  /-- Raised by no meaning: every command of opcode_table.json is modelled. SAFE. -/
  | notModelled (mnemonic : String)
  /-- Raised by a host register access that is not an aligned 32-bit word below offset 0x20: R39 says
  "the platform decides, and a model refuses it" (U13). SAFE. -/
  | hostAccess
  /-- Raised by a power-on with a MEM_SIZE that R7 does not admit (U11: `refuse`). SAFE. -/
  | memSize
  deriving DecidableEq, Repr

/-- The machine after power-on with `size` bytes of DMEM holding `init` (R480, U8: DMEM_INIT). -/
def State.poweredOn (size : Nat) (init : Memory) : State where
  memSize := size
  dmem := init
  irqEn := false
  busy := false
  done := false
  err := false
  matched := false
  errCode := 0
  cmdPtr := 0
  errPtr := 0
  abortPend := false
  slots := Vector.replicate Config.nctx Slot.reset
  spoiled := []
  draws := 0
  polls := 0

/-- The machine right after reset (R480), with MEM_SIZE = `Config.memSize` (log 1) and every DMEM byte
`Config.dmemInit` (log 2). -/
def State.reset : State := State.poweredOn Config.memSize []

end Sys2Proof.Machine
end

