-- ==== Sys2Proof/Machine/Operands.lean ====
section
/-! DEFINITION. The operand forms: which fields a command uses (30_encoding.md R107, R110), the field
checks (R109, R114, R115), the decoded parameters and lengths (R112, R113, 40_common.md R145, R146), and the
width code of the primitives (R114). -/

namespace Sys2Proof.Machine

/-- PARAM, KLEN, AUX and XLEN as R110 lets each algorithm of HASH, VERIFY and INIT use them: a field
marked 0 there is 0 here. -/
def algFields (a : Alg) (o : Operands) : Operands :=
  match a with
  | .md5 | .sha1 | .sha256 | .sha384 => {}
  | .blake2b => { param := o.param, klen := o.klen, aux := if o.klen = 0 then 0 else o.aux }
  | .blake3 => { xlen := o.xlen }
  | .siphash => { param := o.param, aux := o.aux }
  | .murmur3_32 | .murmur3_128 | .xxh32 | .xxh64 | .city64 | .city128 | .farm64 =>
    { param := o.param, aux := if o.param = 0 then 0 else o.aux }

/-- The operand fields with every field that R107 reserves for the operation set to 0. -/
def usedFields (op : Op) (a : Option Alg) (o : Operands) : Operands :=
  match op, a with
  | .hash, some a | .verify, some a => { algFields a o with src := o.src, len := o.len, dst := o.dst }
  | .init, some a => { algFields a o with ctx := o.ctx }
  | .update, _ => { ctx := o.ctx, src := o.src, len := o.len }
  | .final, _ => { ctx := o.ctx, dst := o.dst }
  | .rotl, _ | .rotr, _ => { param := o.param, src := o.src, dst := o.dst }
  | .bswap, _ => { param := o.param &&& 0xC0#8, src := o.src, dst := o.dst }
  | .mul128, _ => { src := o.src, dst := o.dst, aux := o.aux }
  | .jump, _ | .jmatch, _ | .jnmatch, _ => { src := o.src }
  | .nop, _ | .stop, _ | .hash, none | .verify, none | .init, none => {}

/-- A reserved field is non-zero (R109). -/
def reservedBad (op : Op) (a : Option Alg) (o : Operands) : Bool := o != usedFields op a o

/-- PARAM or KLEN is illegal for the algorithm (R110). -/
def algParamBad (a : Alg) (o : Operands) : Bool :=
  match a with
  | .md5 | .sha1 | .sha256 | .sha384 | .blake3 => false
  | .blake2b => o.param.toNat > 64 || o.klen.toNat > 64
  | .siphash | .city64 | .farm64 => o.param.toNat > 2
  | .murmur3_32 | .murmur3_128 | .xxh32 | .xxh64 | .city128 => o.param.toNat > 1

/-- The width code WC = PARAM[7:6] (R114). -/
def widthCode (o : Operands) : Nat := o.param.toNat / 64

/-- The rotation amount AMT = PARAM[5:0] (R114). -/
def rotAmount (o : Operands) : Nat := o.param.toNat % 64

/-- The operand width in bits, `8 << WC` (R114). -/
def opWidth (o : Operands) : Nat := 8 * 2 ^ widthCode o

/-- The operand width in bytes. -/
def opBytes (o : Operands) : Nat := opWidth o / 8

/-- A parameter value is illegal (R110, R114). -/
def paramBad (op : Op) (a : Option Alg) (o : Operands) : Bool :=
  match op, a with
  | .hash, some a | .verify, some a | .init, some a => algParamBad a o
  | .rotl, _ | .rotr, _ => rotAmount o ≥ opWidth o
  | .bswap, _ => widthCode o == 0
  | .update, _ | .final, _ | .mul128, _ | .jump, _ | .jmatch, _ | .jnmatch, _ | .nop, _ | .stop, _
  | .hash, none | .verify, none | .init, none => false

/-- The field checks of a command in the order of R115: reserved fields, then parameter values. -/
def fieldFault (op : Op) (a : Option Alg) (o : Operands) : Option ErrCode :=
  if reservedBad op a o then some .reserved
  else if paramBad op a o then some .param
  else none

/-- `auxlen(ALG, PARAM, KLEN)`, the AUX bytes a command reads (R112). -/
def auxLen (a : Alg) (o : Operands) : Nat :=
  match a with
  | .blake2b => o.klen.toNat
  | .siphash => 16
  | .murmur3_32 | .murmur3_128 | .xxh32 => if o.param = 1 then 4 else 0
  | .xxh64 => if o.param = 1 then 8 else 0
  | .city64 | .farm64 => if o.param = 1 then 8 else if o.param = 2 then 16 else 0
  | .city128 => if o.param = 1 then 16 else 0
  | .md5 | .sha1 | .sha256 | .sha384 | .blake3 => 0

/-- 0 stands for the default output length of 32 (R110, R113). -/
def defaultOutlen (n : Nat) : Nat := if n = 0 then 32 else n

/-- `DecodeParams(ALG, PARAM, KLEN, XLEN)` (40_common.md R145). -/
def decodeParams (a : Alg) (o : Operands) : Params :=
  match a with
  | .md5 | .sha1 | .sha256 | .sha384 => {}
  | .blake2b => { outlen := defaultOutlen o.param.toNat, klen := o.klen.toNat }
  | .blake3 => { outlen := defaultOutlen o.xlen.toNat }
  | .siphash =>
    if o.param = 0 then { c := 2, d := 4 } else if o.param = 1 then { c := 1, d := 3 }
    else { c := 4, d := 8 }
  | .murmur3_32 | .murmur3_128 | .xxh32 | .xxh64 | .city64 | .city128 | .farm64 =>
    { mode := o.param.toNat }

/-- `outlen(ALG, p)` in bytes (40_common.md R146). -/
def outLen (a : Alg) (p : Params) : Nat :=
  match a with
  | .md5 => 16
  | .sha1 => 20
  | .sha256 => 32
  | .sha384 => 48
  | .blake2b | .blake3 => p.outlen
  | .siphash => 8
  | .murmur3_32 => 4
  | .murmur3_128 => 16
  | .xxh32 => 4
  | .xxh64 => 8
  | .city64 => 8
  | .city128 => 16
  | .farm64 => 8

end Sys2Proof.Machine
end

