-- ==== Sys2Proof/Machine/Ops.lean ====
section
/-! DEFINITION. The named operations on the state: DMEM access (20_memory.md R73, R74, R82), context slots
(10_state.md R40), taking a fault (60_exceptions.md R432) and the return from one, which is the host's START
(R436, R51), and what a command may do to the state, as one record that one function commits (R83, R433). -/

namespace Sys2Proof.Machine

/-! ### Memory -/

/-- The byte at an address: its listed value, or `Config.dmemInit`. -/
def Memory.read : Memory → Nat → Byte
  | [], _ => Config.dmemInit
  | (x, b) :: m, a => if a = x then b else Memory.read m a

/-- A cell put in front of a memory that lists only higher addresses; nothing where the byte is what an
unlisted address reads as. -/
def Memory.cons (a : Nat) (b : Byte) (m : Memory) : Memory :=
  if b = Config.dmemInit then m else (a, b) :: m

/-- Store one byte, keeping the canonical form. -/
def Memory.write : Memory → Nat → Byte → Memory
  | [], a, b => Memory.cons a b []
  | (x, c) :: m, a, b =>
    if a < x then Memory.cons a b ((x, c) :: m)
    else if a = x then Memory.cons a b m
    else (x, c) :: Memory.write m a b

/-- The canonical form: addresses strictly rising, no entry equal to what an unlisted address reads as. -/
def Memory.wf : Memory → Bool
  | [] => true
  | (x, b) :: m => b != Config.dmemInit && m.all (fun c => x < c.1) && Memory.wf m

/-- The `n` bytes from address `a` on (R73, for a range that is in DMEM). -/
def Memory.readBytes (m : Memory) (a : Nat) : Nat → Bytes
  | 0 => []
  | n + 1 => Memory.read m a :: Memory.readBytes m (a + 1) n

/-- Store a byte string from address `a` on (R74, for a range that is in DMEM). -/
def Memory.writeBytes (m : Memory) (a : Nat) : Bytes → Memory
  | [] => m
  | b :: bs => Memory.writeBytes (Memory.write m a b) (a + 1) bs

/-- `InRange(a, n)` (R82): on naturals, without wrap; an empty range is always in range. -/
def State.inRange (s : State) (a n : Nat) : Bool := n == 0 || a + n ≤ s.memSize

/-- `MemRead(a, n)` (R73). -/
def State.memRead (s : State) (a n : Nat) : Bytes := Memory.readBytes s.dmem a n

/-! ### Context slots -/

/-- `ctx[c]` (R40). -/
def State.slot (s : State) (c : BitVec 3) : Slot := s.slots[c.toNat]'c.isLt

/-- `ctx[c] <- v`. -/
def State.setSlot (s : State) (c : BitVec 3) (v : Slot) : State :=
  { s with slots := s.slots.set c.toNat v c.isLt }

/-! ### Faults -/

/-- The number written to STATUS.ERRCODE (R431). -/
def errNumber : ErrCode → BitVec 8
  | .fetchAlign => 0x01#8
  | .fetchRange => 0x02#8
  | .illegalOp => 0x03#8
  | .illegalAlg => 0x04#8
  | .reserved => 0x05#8
  | .param => 0x06#8
  | .targetAlign => 0x07#8
  | .ctxState => 0x08#8
  | .ctxAlg => 0x09#8
  | .range => 0x0A#8
  | .length => 0x0B#8
  | .abort => 0x0C#8

/-- Fault entry (R432): the code and the command's address are recorded, the run ends, nothing else
changes. An abort taken at a command boundary writes the same registers (R435). -/
def State.raiseFault (s : State) (e : ErrCode) : State :=
  { s with errCode := errNumber e, errPtr := s.cmdPtr, err := true, busy := false, abortPend := false }

/-- START while idle (R51). It is also the return from a fault: CMDPTR still holds the faulting command's
address, so the run resumes there (R436). -/
def State.start (s : State) : State :=
  { s with busy := true, done := false, err := false, errCode := 0 }

/-! ### What a command does -/

/-- Everything a command that does not fault may do (R31, R34, R36): store one byte string at DST, write
MATCH, write one context slot, move CMDPTR to a target instead of the next descriptor, end the run. -/
structure Effect where
  store : Option (Nat × Bytes) := none
  flag : Option Bool := none
  slot : Option (BitVec 3 × Slot) := none
  target : Option Word := none
  stop : Bool := false
  deriving DecidableEq, Repr

/-- DMEM after an optional store. -/
def Memory.storeOpt (m : Memory) : Option (Nat × Bytes) → Memory
  | none => m
  | some (a, bs) => Memory.writeBytes m a bs

/-- The slots after an optional slot write. -/
def slotsAfter (v : Vector Slot Config.nctx) : Option (BitVec 3 × Slot) → Vector Slot Config.nctx
  | none => v
  | some (c, x) => v.set c.toNat x c.isLt

/-- CMDPTR of the descriptor after this one (R34): + 32 modulo 2^32. -/
def State.nextPtr (s : State) : Word := s.cmdPtr + 32#32

/-- The state after a command that did not fault (R34, R83; STOP: 49_control.md R414, which also drops a
pending abort, R44). -/
def State.commit (s : State) (e : Effect) : State :=
  { s with
    dmem := Memory.storeOpt s.dmem e.store
    matched := e.flag.getD s.matched
    slots := slotsAfter s.slots e.slot
    cmdPtr := e.target.getD s.nextPtr
    busy := if e.stop then false else s.busy
    done := if e.stop then true else s.done
    abortPend := if e.stop then false else s.abortPend }

/-- A command's outcome: its effect, or the fault it raised, with no other effect (R433). -/
def State.finish (s : State) : Except ErrCode Effect → Host.Outcome State Fault Refusal
  | .ok e => .next (s.commit e)
  | .error c => .next (s.raiseFault c)

end Sys2Proof.Machine
end

