-- ==== Sys2Proof/Machine/Control.lean ====
section
/-! DEFINITION. Command-list control: JUMP, JMATCH, JNMATCH, NOP and STOP (49_control.md R410 to R414). -/

namespace Sys2Proof.Machine

/-- A jump to TARGET = W1 when `taken`; the alignment check is made whether or not it is (R410 to R412). -/
def jumpEffect (op : Op) (taken : Bool) (o : Operands) : Except ErrCode Effect :=
  match fieldFault op none o with
  | some e => .error e
  | none =>
    if o.src.toNat % Config.descBytes ≠ 0 then .error .targetAlign
    else .ok { target := if taken then some o.src else none }

/-- A command without operands and its effect (R413, R414). -/
def plainEffect (op : Op) (e : Effect) (o : Operands) : Except ErrCode Effect :=
  match fieldFault op none o with
  | some c => .error c
  | none => .ok e

/-- `jump` (R410). -/
def execJump (o : Operands) (s : State) : Host.Outcome State Fault Refusal :=
  s.finish (jumpEffect .jump true o)

/-- `jmatch` (R411). -/
def execJmatch (o : Operands) (s : State) : Host.Outcome State Fault Refusal :=
  s.finish (jumpEffect .jmatch s.matched o)

/-- `jnmatch` (R412). -/
def execJnmatch (o : Operands) (s : State) : Host.Outcome State Fault Refusal :=
  s.finish (jumpEffect .jnmatch (!s.matched) o)

/-- `nop` (R413). -/
def execNop (o : Operands) (s : State) : Host.Outcome State Fault Refusal :=
  s.finish (plainEffect .nop {} o)

/-- `stop` (R414). -/
def execStop (o : Operands) (s : State) : Host.Outcome State Fault Refusal :=
  s.finish (plainEffect .stop { stop := true } o)

end Sys2Proof.Machine
end

