-- ==== Sys2Proof/Machine/Blake2b.lean ====
section
/-! DEFINITION. blake2b_core: the algorithm of 43_blake2b.md (R230 to R237), and the mixing function that
BLAKE2b and BLAKE3 share in shape (R232, R261). -/

namespace Sys2Proof.Machine

/-- The four rotation amounts of a mixing function `G` (R232, R261). -/
structure MixAmounts where
  r1 : Nat
  r2 : Nat
  r3 : Nat
  r4 : Nat
  deriving DecidableEq, Repr

/-- `G(v, a, b, c, d, x, y)` (R232, R261). -/
def mixG {w : Nat} (r : MixAmounts) (v : List (BitVec w)) (a b c d : Nat) (x y : BitVec w) :
    List (BitVec w) :=
  let va := wordAt v a + wordAt v b + x
  let vd := rotr (wordAt v d ^^^ va) r.r1
  let vc := wordAt v c + vd
  let vb := rotr (wordAt v b ^^^ vc) r.r2
  let va' := va + vb + y
  let vd' := rotr (vd ^^^ va') r.r3
  let vc' := vc + vd'
  let vb' := rotr (vb ^^^ vc') r.r4
  (((v.set a va').set b vb').set c vc').set d vd'

/-- One round: four columns, then four diagonals, taking the 16 words of `m` in order (R233, R261). -/
def mixRound {w : Nat} (r : MixAmounts) (v m : List (BitVec w)) : List (BitVec w) :=
  let v := mixG r v 0 4 8 12 (wordAt m 0) (wordAt m 1)
  let v := mixG r v 1 5 9 13 (wordAt m 2) (wordAt m 3)
  let v := mixG r v 2 6 10 14 (wordAt m 4) (wordAt m 5)
  let v := mixG r v 3 7 11 15 (wordAt m 6) (wordAt m 7)
  let v := mixG r v 0 5 10 15 (wordAt m 8) (wordAt m 9)
  let v := mixG r v 1 6 11 12 (wordAt m 10) (wordAt m 11)
  let v := mixG r v 2 7 8 13 (wordAt m 12) (wordAt m 13)
  mixG r v 3 4 9 14 (wordAt m 14) (wordAt m 15)

/-- IV_B2 (R230). -/
def blake2bIV : List Word64 :=
  [0x6a09e667f3bcc908#64, 0xbb67ae8584caa73b#64, 0x3c6ef372fe94f82b#64, 0xa54ff53a5f1d36f1#64,
   0x510e527fade682d1#64, 0x9b05688c2b3e6c1f#64, 0x1f83d9abfb41bd6b#64, 0x5be0cd19137e2179#64]

/-- The message permutations SIGMA[0..9] (R231). -/
def blake2bSigma : List (List Nat) :=
  [[0, 1, 2, 3, 4, 5, 6, 7, 8, 9, 10, 11, 12, 13, 14, 15],
   [14, 10, 4, 8, 9, 15, 13, 6, 1, 12, 0, 2, 11, 7, 5, 3],
   [11, 8, 12, 0, 5, 2, 15, 13, 10, 14, 3, 6, 7, 1, 9, 4],
   [7, 9, 3, 1, 13, 12, 11, 14, 2, 6, 5, 10, 4, 0, 15, 8],
   [9, 0, 5, 7, 2, 4, 10, 15, 14, 1, 11, 12, 6, 8, 3, 13],
   [2, 12, 6, 10, 0, 11, 8, 3, 4, 13, 7, 5, 15, 14, 1, 9],
   [12, 5, 1, 15, 14, 13, 4, 10, 0, 7, 6, 3, 9, 2, 8, 11],
   [13, 11, 7, 14, 12, 1, 3, 9, 5, 0, 15, 4, 8, 6, 2, 10],
   [6, 15, 14, 9, 11, 3, 0, 8, 12, 2, 13, 7, 1, 4, 10, 5],
   [10, 2, 8, 4, 7, 6, 1, 5, 15, 11, 9, 14, 3, 12, 13, 0]]

/-- The rotation amounts of BLAKE2b's `G` (R232). -/
def blake2bMix : MixAmounts := ⟨32, 24, 16, 63⟩

/-- Round `r`, with the message words permuted by `SIGMA[r mod 10]` (R231, R233). -/
def blake2bRound (m : List Word64) (v : List Word64) (r : Nat) : List Word64 :=
  mixRound blake2bMix v ((blake2bSigma.getD (r % 10) []).map (wordAt m))

/-- `F(h, blk, t, last)` (R233). -/
def blake2bF (h : List Word64) (blk : Bytes) (t : BitVec 128) (last : Bool) : List Word64 :=
  let m := (List.range 16).map fun i => readLE 64 blk (8 * i)
  let iv := wordAt blake2bIV
  let v0 := h ++
    [iv 0, iv 1, iv 2, iv 3, iv 4 ^^^ t.setWidth 64, iv 5 ^^^ (t >>> 64).setWidth 64,
     if last then ~~~(iv 6) else iv 6, iv 7]
  let v := (List.range 12).foldl (blake2bRound m) v0
  (List.range 8).map fun i => wordAt h i ^^^ wordAt v i ^^^ wordAt v (i + 8)

/-- The initial state for a key of `kk` bytes and an output of `nn` bytes (R234). -/
def blake2bInit (kk nn : Nat) : List Word64 :=
  blake2bIV.set 0
    (wordAt blake2bIV 0 ^^^ 0x01010000#64 ^^^ (BitVec.ofNat 64 kk <<< 8) ^^^ BitVec.ofNat 64 nn)

/-- `D`: the key block, if there is a key, and then the message (R236). -/
def blake2bData (key m : Bytes) : Bytes := (if key.length > 0 then zeroPad 128 key else []) ++ m

/-- `BLAKE2b(m, key, nn)`, `nn` bytes (R236). -/
def blake2b (m key : Bytes) (nn : Nat) : Bytes :=
  let D := blake2bData key m
  let blks := blocks 128 (max 1 (ceilDiv D.length 128)) D
  let h := blks.dropLast.zipIdx.foldl
    (fun h bi => blake2bF h bi.1 (BitVec.ofNat 128 (128 * (bi.2 + 1))) false)
    (blake2bInit key.length nn)
  let h := blake2bF h (zeroPad 128 (blks.getLast?.getD [])) (BitVec.ofNat 128 D.length) true
  (h.flatMap bytesLE).take nn

end Sys2Proof.Machine
end

