-- ==== Sys2Proof/Machine/Blake3.lean ====
section
/-! DEFINITION. blake3_core: the algorithm of 44_blake3.md (R260 to R270), plain hash mode. -/

namespace Sys2Proof.Machine

/-- IV_B3 (R260). -/
def blake3IV : List Word :=
  [0x6a09e667#32, 0xbb67ae85#32, 0x3c6ef372#32, 0xa54ff53a#32,
   0x510e527f#32, 0x9b05688c#32, 0x1f83d9ab#32, 0x5be0cd19#32]

/-- The domain flag CHUNK_START (R260). -/
def chunkStart : Word := 1#32
/-- The domain flag CHUNK_END (R260). -/
def chunkEnd : Word := 2#32
/-- The domain flag PARENT (R260). -/
def parentFlag : Word := 4#32
/-- The domain flag ROOT (R260). -/
def rootFlag : Word := 8#32

/-- The rotation amounts of BLAKE3's `G` (R261). -/
def blake3Mix : MixAmounts := ⟨16, 12, 8, 7⟩

/-- PERM (R262). -/
def blake3Perm : List Nat := [2, 6, 3, 10, 7, 0, 4, 13, 1, 11, 12, 5, 9, 14, 15, 8]

/-- `n` rounds, the message words permuted between rounds (R262, R263). -/
def blake3Rounds : Nat → List Word → List Word → List Word
  | 0, v, _ => v
  | n + 1, v, m => blake3Rounds n (mixRound blake3Mix v m) (blake3Perm.map (wordAt m))

/-- The 16 message words of a block of at most 64 bytes, zero-padded (R263). -/
def blake3Words (blk : Bytes) : List Word :=
  (List.range 16).map fun i => readLE 32 (zeroPad 64 blk) (4 * i)

/-- `Compress(cv, blk, ctr, blen, flags)` on the block's words (R263). -/
def blake3Compress (cv m : List Word) (ctr : Word64) (blen : Nat) (flags : Word) : List Word :=
  let v := blake3Rounds 7
    (cv ++ blake3IV.take 4 ++
      [ctr.setWidth 32, (ctr >>> 32).setWidth 32, BitVec.ofNat 32 blen, flags]) m
  ((List.range 8).map fun i => wordAt v i ^^^ wordAt v (i + 8)) ++
    ((List.range 8).map fun i => wordAt v (i + 8) ^^^ wordAt cv i)

/-- A pending compression, the *output* of R264. -/
structure Blake3Output where
  cv : List Word
  block : List Word
  ctr : Word64
  blen : Nat
  flags : Word
  deriving DecidableEq, Repr

/-- The chaining value of a pending compression: its first 8 words (R263, R264). -/
def outputCV (o : Blake3Output) : List Word :=
  (blake3Compress o.cv o.block o.ctr o.blen o.flags).take 8

/-- CHUNK_START for block 0 of a chunk, no flag for the others (R264). -/
def startFlag (i : Nat) : Word := if i = 0 then chunkStart else 0

/-- `ChunkOutput(chunk, j)` (R264). -/
def chunkOutput (chunk : Bytes) (j : Nat) : Blake3Output :=
  let nb := max 1 (ceilDiv chunk.length 64)
  let blks := blocks 64 nb chunk
  let ctr := BitVec.ofNat 64 j
  let cv := blks.dropLast.zipIdx.foldl
    (fun cv bi => (blake3Compress cv (blake3Words bi.1) ctr bi.1.length (startFlag bi.2)).take 8)
    blake3IV
  let last := blks.getLast?.getD []
  ⟨cv, blake3Words last, ctr, last.length, startFlag (nb - 1) ||| chunkEnd⟩

/-- `ParentOutput(left, right)` (R265). -/
def parentOutput (left right : List Word) : Blake3Output :=
  ⟨blake3IV, left ++ right, 0, 64, parentFlag⟩

/-- Push a chunk's chaining value, after one merge for each trailing zero bit of the number `total` of
chunks completed (R266). The head of the list is the top of the stack. -/
def pushCV : List (List Word) → Nat → List Word → List (List Word)
  | [], _, cv => [cv]
  | top :: rest, total, cv =>
    if total % 2 = 0 then pushCV rest (total / 2) (outputCV (parentOutput top cv))
    else cv :: top :: rest

/-- The chunks of a message; the empty message has one empty chunk (R264). -/
def blake3Chunks (m : Bytes) : List Bytes := blocks 1024 (max 1 (ceilDiv m.length 1024)) m

/-- The root output of the tree (R266). -/
def blake3Root (m : Bytes) : Blake3Output :=
  let chunks := blake3Chunks m
  let stack := chunks.dropLast.zipIdx.foldl
    (fun st cj => pushCV st (cj.2 + 1) (outputCV (chunkOutput cj.1 cj.2))) []
  stack.foldl (fun out left => parentOutput left (outputCV out))
    (chunkOutput (chunks.getLast?.getD []) (chunks.length - 1))

/-- Output block `k` of the root, 64 bytes (R267). -/
def rootBlock (r : Blake3Output) (k : Nat) : Bytes :=
  (blake3Compress r.cv r.block (BitVec.ofNat 64 k) r.blen (r.flags ||| rootFlag)).flatMap bytesLE

/-- `BLAKE3(m, n)`, `n` bytes (R267, R270). -/
def blake3 (m : Bytes) (n : Nat) : Bytes :=
  let r := blake3Root m
  ((List.range (ceilDiv n 64)).flatMap (rootBlock r)).take n

end Sys2Proof.Machine
end

