-- ==== Sys2Proof/Machine/CityHash.lean ====
section
/-! DEFINITION. cityhash_core: CityHash64 and CityHash128 v1.1 of 47_city_farm.md (R350 to R366), with the
helpers that FarmHash shares. Offsets are into the whole message `s`, as in the rules. -/

namespace Sys2Proof.Machine

/-- `k0` of R350. -/
def cityK0 : Word64 := 0xc3a5c85c97cb3127#64
/-- `k1` of R350. -/
def cityK1 : Word64 := 0xb492b66fbe98f273#64
/-- `k2` of R350. -/
def cityK2 : Word64 := 0x9ae16a3b2f90404f#64
/-- `kMul` of R350. -/
def cityKMul : Word64 := 0x9ddfea08eb382d69#64

/-- A length or offset as a `u64` (47_city_farm.md, introduction). -/
def u64 (n : Nat) : Word64 := BitVec.ofNat 64 n

/-- `Fetch64(s, o)` (R351). -/
def fetch64 (s : Bytes) (o : Nat) : Word64 := readLE 64 s o

/-- `Fetch32(s, o)`, zero-extended (R351). -/
def fetch32 (s : Bytes) (o : Nat) : Word64 := (readLE 32 s o).setWidth 64

/-- `ShiftMix(v)` (R351). -/
def shiftMix (v : Word64) : Word64 := xorShift v 47

/-- `Bswap64(v)` (R351). -/
def bswap64 (v : Word64) : Word64 := readBE 64 (bytesLE v) 0

/-- `HashLen16(u, v, mul)` (R351). -/
def hashLen16Mul (u v mul : Word64) : Word64 :=
  let a := xorShift ((u ^^^ v) * mul) 47
  let b := xorShift ((v ^^^ a) * mul) 47
  b * mul

/-- `HashLen16(u, v) = Hash128to64(u, v)` (R351). -/
def hashLen16 (u v : Word64) : Word64 := hashLen16Mul u v cityKMul

/-- `WeakHashLen32WithSeeds(s, o, a, b)` (R351). -/
def weakHash32 (s : Bytes) (o : Nat) (a b : Word64) : Word64 × Word64 :=
  let x := fetch64 s (o + 8)
  let y := fetch64 s (o + 16)
  let z := fetch64 s (o + 24)
  let a := a + fetch64 s o
  let b := rotr (b + a + z) 21
  let c := a
  let a := a + x + y
  let b := b + rotr a 44
  (a + z, b + c)

/-- `HashLen0to16(s, o, n)` for `n ≤ 16` (R352). -/
def hashLen0to16 (s : Bytes) (o n : Nat) : Word64 :=
  if n ≥ 8 then
    let mul := cityK2 + u64 n * 2
    let a := fetch64 s o + cityK2
    let b := fetch64 s (o + n - 8)
    let c := rotr b 37 * mul + a
    let d := (rotr a 25 + b) * mul
    hashLen16Mul c d mul
  else if n ≥ 4 then
    let mul := cityK2 + u64 n * 2
    hashLen16Mul (u64 n + (fetch32 s o <<< 3)) (fetch32 s (o + n - 4)) mul
  else if n > 0 then
    let a := s.getD o 0
    let b := s.getD (o + n / 2) 0
    let c := s.getD (o + n - 1) 0
    let y : Word := a.setWidth 32 + (b.setWidth 32 <<< 8)
    let z : Word := BitVec.ofNat 32 n + (c.setWidth 32 <<< 2)
    shiftMix ((y.setWidth 64 * cityK2) ^^^ (z.setWidth 64 * cityK0)) * cityK2
  else cityK2

/-- `HashLen17to32(s, n)` for `17 ≤ n ≤ 32` (R353). -/
def hashLen17to32 (s : Bytes) (n : Nat) : Word64 :=
  let mul := cityK2 + u64 n * 2
  let a := fetch64 s 0 * cityK1
  let b := fetch64 s 8
  let c := fetch64 s (n - 8) * mul
  let d := fetch64 s (n - 16) * cityK2
  hashLen16Mul (rotr (a + b) 43 + rotr c 30 + d) (a + rotr (b + cityK2) 18 + c) mul

/-- The running values of the long loops: `x`, `y`, `z` and the two weak-hash pairs (R354). -/
structure CityState where
  x : Word64
  y : Word64
  z : Word64
  v : Word64 × Word64
  w : Word64 × Word64
  deriving DecidableEq, Repr

/-- `Stride(s, o, x, y, z, v, w, M)` (R354). -/
def cityStride (s : Bytes) (M : Word64) (c : CityState) (o : Nat) : CityState :=
  let x := rotr (c.x + c.y + c.v.1 + fetch64 s (o + 8)) 37 * M
  let y := rotr (c.y + c.v.2 + fetch64 s (o + 48)) 42 * M
  let x := x ^^^ c.w.2
  let y := y + c.v.1 + fetch64 s (o + 40)
  let z := rotr (c.z + c.w.1) 33 * M
  let v := weakHash32 s o (c.v.2 * M) (x + c.w.1)
  let w := weakHash32 s (o + 32) (z + c.w.2) (y + fetch64 s (o + 16))
  ⟨z, y, x, v, w⟩

/-- `k` strides of 64 bytes from offset `o` with multiplier `k1` (R357, R364, R371). -/
def cityStrides (s : Bytes) (k o : Nat) (c : CityState) : CityState :=
  (List.range k).foldl (fun c i => cityStride s cityK1 c (o + 64 * i)) c

/-- `CityLen33to64(s, n)` for `33 ≤ n ≤ 64` (R355). -/
def cityLen33to64 (s : Bytes) (n : Nat) : Word64 :=
  let mul := cityK2 + u64 n * 2
  let a := fetch64 s 0 * cityK2
  let b := fetch64 s 8
  let c := fetch64 s (n - 24)
  let d := fetch64 s (n - 32)
  let e := fetch64 s 16 * cityK2
  let f := fetch64 s 24 * 9
  let g := fetch64 s (n - 8)
  let h := fetch64 s (n - 16) * mul
  let u := rotr (a + g) 43 + (rotr b 30 + c) * 9
  let v := ((a + g) ^^^ d) + f + 1
  let w := bswap64 ((u + v) * mul) + h
  let x := rotr (e + f) 42 + c
  let y := (bswap64 ((v + w) * mul) + g) * mul
  let z := e + f + c
  let a := bswap64 ((x + z) * mul + y) + b
  let b := shiftMix ((z + a) * mul + d + h) * mul
  b + x

/-- The set-up of the long path (R356). -/
def city64Setup (s : Bytes) (n : Nat) : CityState :=
  let x := fetch64 s (n - 40)
  let y := fetch64 s (n - 16) + fetch64 s (n - 56)
  let z := hashLen16 (fetch64 s (n - 48) + u64 n) (fetch64 s (n - 24))
  let v := weakHash32 s (n - 64) (u64 n) z
  let w := weakHash32 s (n - 32) (y + cityK1) x
  ⟨x * cityK1 + fetch64 s 0, y, z, v, w⟩

/-- The long path of City64, `n > 64` (R356 to R358). The loop runs `L / 64` times with `L = (n - 1) & ~63`
(R357): once for `n = 128`, where R375's corner case says twice. DEDUCED: R357, which defines the algorithm, is
followed; unsafe if the hardware makes two passes there. Log 20. -/
def city64Long (s : Bytes) (n : Nat) : Word64 :=
  let c := cityStrides s ((n - 1) / 64) 0 (city64Setup s n)
  hashLen16 (hashLen16 c.v.1 c.w.1 + shiftMix c.y * cityK1 + c.z) (hashLen16 c.v.2 c.w.2 + c.x)

/-- `City64(s)` (R359, R360). -/
def city64 (s : Bytes) : Word64 :=
  let n := s.length
  if n ≤ 16 then hashLen0to16 s 0 n
  else if n ≤ 32 then hashLen17to32 s n
  else if n ≤ 64 then cityLen33to64 s n
  else city64Long s n

/-- `City64WithSeeds(s, seed0, seed1)` (R362). -/
def city64WithSeeds (s : Bytes) (seed0 seed1 : Word64) : Word64 := hashLen16 (city64 s - seed0) seed1

/-- `City64WithSeed(s, seed)` (R361). -/
def city64WithSeed (s : Bytes) (seed : Word64) : Word64 := city64WithSeeds s cityK2 seed

/-- One 16-byte stride at offset `o` of `CityMurmur`'s loop on `(a, b, c, d)` (R363). -/
def cityMurmurStep (s : Bytes) (q : Word64 × Word64 × Word64 × Word64) (o : Nat) :
    Word64 × Word64 × Word64 × Word64 :=
  let (a, b, c, d) := q
  let a := (a ^^^ (shiftMix (fetch64 s o * cityK1) * cityK1)) * cityK1
  let b := b ^^^ a
  let c := (c ^^^ (shiftMix (fetch64 s (o + 8) * cityK1) * cityK1)) * cityK1
  let d := d ^^^ c
  (a, b, c, d)

/-- `CityMurmur(s, o, n, lo, hi)` for `n < 128` (R363); the loop runs `ceil((n - 16) / 16)` times. -/
def cityMurmur (s : Bytes) (o n : Nat) (lo hi : Word64) : Word64 × Word64 :=
  let (a, b, c, d) :=
    if n ≤ 16 then
      let a := shiftMix (lo * cityK1) * cityK1
      let c := hi * cityK1 + hashLen0to16 s o n
      let d := shiftMix (a + (if n ≥ 8 then fetch64 s o else c))
      (a, hi, c, d)
    else
      let c := hashLen16 (fetch64 s (o + n - 8) + cityK1) lo
      let d := hashLen16 (hi + u64 n) (c + fetch64 s (o + n - 16))
      (List.range (ceilDiv (n - 16) 16)).foldl (fun q i => cityMurmurStep s q (o + 16 * i))
        (lo + d, hi, c, d)
  let a := hashLen16 a c
  let b := hashLen16 d b
  (a ^^^ b, hashLen16 b a)

/-- One step of the tail of `City128Seed`, 32 bytes at `p`, counted from the end (R364). -/
def city128TailStep (s : Bytes) (c : CityState) (p : Nat) : CityState :=
  let y := rotr (c.x + c.y) 42 * cityK0 + c.v.2
  let w1 := c.w.1 + fetch64 s (p + 16)
  let x := c.x * cityK0 + w1
  let z := c.z + c.w.2 + fetch64 s p
  let w2 := c.w.2 + c.v.1
  let v := weakHash32 s p (c.v.1 + z) c.v.2
  ⟨x, y, z, (v.1 * cityK0, v.2), (w1, w2)⟩

/-- `City128Seed(s, o, n, lo, hi)` (R364): `n / 128` passes of two strides, then the tail of `n mod 128`
bytes in `ceil((n mod 128) / 32)` steps from the end. -/
def city128Seed (s : Bytes) (o n : Nat) (lo hi : Word64) : Word64 × Word64 :=
  if n < 128 then cityMurmur s o n lo hi
  else
    let z := u64 n * cityK1
    let v1 := rotr (hi ^^^ cityK1) 49 * cityK1 + fetch64 s o
    let v2 := rotr v1 42 * cityK1 + fetch64 s (o + 8)
    let w1 := rotr (hi + z) 35 * cityK1 + lo
    let w2 := rotr (lo + fetch64 s (o + 88)) 53 * cityK1
    let c := cityStrides s (2 * (n / 128)) o ⟨lo, hi, z, (v1, v2), (w1, w2)⟩
    let x := c.x + rotr (c.v.1 + c.z) 49 * cityK0
    let y := c.y * cityK0 + rotr c.w.2 37
    let z := c.z * cityK0 + rotr c.w.1 27
    let r := n % 128
    let stop := o + 128 * (n / 128) + r
    let c := (List.range (ceilDiv r 32)).foldl
      (fun c i => city128TailStep s c (stop - 32 * (i + 1)))
      ⟨x, y, z, (c.v.1 * cityK0, c.v.2), (c.w.1 * 9, c.w.2)⟩
    let x := hashLen16 c.x c.v.1
    let y := hashLen16 (c.y + c.z) c.w.1
    (hashLen16 (x + c.v.2) c.w.2 + y, hashLen16 (x + c.w.2) (y + c.v.2))

/-- `City128(s)` (R365). -/
def city128 (s : Bytes) : Word64 × Word64 :=
  let n := s.length
  if n ≥ 16 then city128Seed s 16 (n - 16) (fetch64 s 0) (fetch64 s 8 + cityK0)
  else city128Seed s 0 n cityK0 cityK1

/-- `City128WithSeed(s, (lo, hi))` (R366). -/
def city128WithSeed (s : Bytes) (lo hi : Word64) : Word64 × Word64 := city128Seed s 0 s.length lo hi

end Sys2Proof.Machine
end

