-- ==== Sys2Proof/Machine/FarmHash.lean ====
section
/-! DEFINITION. farmhash_core: FarmHash64 (`farmhashna`) of 47_city_farm.md (R370 to R373). -/

namespace Sys2Proof.Machine

/-- `FarmLen33to64(s, n)` for `33 ≤ n ≤ 64` (R370). -/
def farmLen33to64 (s : Bytes) (n : Nat) : Word64 :=
  let mul := cityK2 + u64 n * 2
  let a := fetch64 s 0 * cityK2
  let b := fetch64 s 8
  let c := fetch64 s (n - 8) * mul
  let d := fetch64 s (n - 16) * cityK2
  let y := rotr (a + b) 43 + rotr c 30 + d
  let z := hashLen16Mul y (a + rotr (b + cityK2) 18 + c) mul
  let e := fetch64 s 16 * mul
  let f := fetch64 s 24
  let g := (y + fetch64 s (n - 32)) * mul
  let h := (z + fetch64 s (n - 24)) * mul
  hashLen16Mul (rotr (e + f) 43 + rotr g 30 + h) (e + rotr (f + a) 18 + g) mul

/-- The values before the loop of the long path, seed 81 (R371). -/
def farm64Setup (s : Bytes) : CityState :=
  let seed : Word64 := 81#64
  let y := seed * cityK1 + 113#64
  ⟨seed * cityK2 + fetch64 s 0, y, shiftMix (y * cityK2 + 113#64) * cityK2, (0, 0), (0, 0)⟩

/-- The long path, `n > 64`: the strides, then the last 64 bytes with their own multiplier (R371). -/
def farm64Long (s : Bytes) (n : Nat) : Word64 :=
  let c := cityStrides s ((n - 1) / 64) 0 (farm64Setup s)
  let mul := cityK1 + ((c.z &&& 0xff#64) <<< 1)
  let o := n - 64
  let w1 := c.w.1 + u64 ((n - 1) % 64)
  let v1 := c.v.1 + w1
  let w1 := w1 + v1
  let x := rotr (c.x + c.y + v1 + fetch64 s (o + 8)) 37 * mul
  let y := rotr (c.y + c.v.2 + fetch64 s (o + 48)) 42 * mul
  let x := x ^^^ (c.w.2 * 9)
  let y := y + v1 * 9 + fetch64 s (o + 40)
  let z := rotr (c.z + w1) 33 * mul
  let v := weakHash32 s o (c.v.2 * mul) (x + w1)
  let w := weakHash32 s (o + 32) (z + c.w.2) (y + fetch64 s (o + 16))
  let (x, z) := (z, x)
  hashLen16Mul (hashLen16Mul v.1 w.1 mul + shiftMix y * cityK0 + z) (hashLen16Mul v.2 w.2 mul + x) mul

/-- `Farm64(s)` (R372). -/
def farm64 (s : Bytes) : Word64 :=
  let n := s.length
  if n ≤ 16 then hashLen0to16 s 0 n
  else if n ≤ 32 then hashLen17to32 s n
  else if n ≤ 64 then farmLen33to64 s n
  else farm64Long s n

/-- `Farm64WithSeeds(s, seed0, seed1)` (R373). -/
def farm64WithSeeds (s : Bytes) (seed0 seed1 : Word64) : Word64 := hashLen16 (farm64 s - seed0) seed1

/-- `Farm64WithSeed(s, seed)` (R373). -/
def farm64WithSeed (s : Bytes) (seed : Word64) : Word64 := farm64WithSeeds s cityK2 seed

end Sys2Proof.Machine
end

