-- ==== Sys2Proof/Machine/MerkleDamgard.lean ====
section
/-! DEFINITION. The Merkle–Damgård padding and iteration of 40_common.md section 3 (R151 to R153),
shared by MD5, SHA-1, SHA-256 and SHA-384. -/

namespace Sys2Proof.Machine

/-- The byte order of the length field (R151). -/
inductive ByteOrder where
  | little | big
  deriving DecidableEq, Repr

/-- The least `k` with `(n + 1 + k + L) mod B = 0` (R151). -/
def mdZeros (n B L : Nat) : Nat := (B - (n + 1 + L) % B) % B

/-- `MDPad(m, B, L, order)` (R151). -/
def mdPad (m : Bytes) (B L : Nat) (order : ByteOrder) : Bytes :=
  let bits := natBytesLE L (8 * m.length)
  m ++ [0x80#8] ++ zeros (mdZeros m.length B L) ++
    (match order with
     | .little => bits
     | .big => bits.reverse)

/-- `MDIterate(C, h0, P)` for a compression function on blocks of `B` bytes (R153). -/
def mdIterate {σ : Type} (C : σ → Bytes → σ) (B : Nat) (h0 : σ) (P : Bytes) : σ :=
  (blocks B (P.length / B) P).foldl C h0

end Sys2Proof.Machine
end

