-- ==== Sys2Proof/Machine/Md5Sha1.lean ====
section
/-! DEFINITION. md5_core and sha1_core: the algorithms of 41_md5_sha1.md (R170 to R184). -/

namespace Sys2Proof.Machine

/-! ### MD5 -/

/-- The four words of the MD5 state (R170). -/
structure Md5State where
  a : Word
  b : Word
  c : Word
  d : Word
  deriving DecidableEq, Repr

/-- IV_MD5 (R170). -/
def md5IV : Md5State := ⟨0x67452301#32, 0xefcdab89#32, 0x98badcfe#32, 0x10325476#32⟩

/-- F, G, H or I, whichever round `i` uses (R171). -/
def md5F (i : Nat) (b c d : Word) : Word :=
  if i < 16 then (b &&& c) ||| (~~~b &&& d)
  else if i < 32 then (d &&& b) ||| (~~~d &&& c)
  else if i < 48 then b ^^^ c ^^^ d
  else c ^^^ (b ||| ~~~d)

/-- The message index `g(i)` (R171). -/
def md5G (i : Nat) : Nat :=
  if i < 16 then i
  else if i < 32 then (5 * i + 1) % 16
  else if i < 48 then (3 * i + 5) % 16
  else (7 * i) % 16

/-- The cycle of shift amounts of round `i` (R172). -/
def md5Cycle (i : Nat) : List Nat :=
  if i < 16 then [7, 12, 17, 22]
  else if i < 32 then [5, 9, 14, 20]
  else if i < 48 then [4, 11, 16, 23]
  else [6, 10, 15, 21]

/-- The shift amount `S[i]` (R172). -/
def md5S (i : Nat) : Nat := (md5Cycle i).getD (i % 4) 0

/-- The round constants `T` of the table of R173, entries 0 to 15. -/
def md5T0 : List (BitVec 32) :=
  [0xd76aa478#32, 0xe8c7b756#32, 0x242070db#32, 0xc1bdceee#32,
   0xf57c0faf#32, 0x4787c62a#32, 0xa8304613#32, 0xfd469501#32,
   0x698098d8#32, 0x8b44f7af#32, 0xffff5bb1#32, 0x895cd7be#32,
   0x6b901122#32, 0xfd987193#32, 0xa679438e#32, 0x49b40821#32]

/-- The round constants `T` of the table of R173, entries 16 to 31. -/
def md5T1 : List (BitVec 32) :=
  [0xf61e2562#32, 0xc040b340#32, 0x265e5a51#32, 0xe9b6c7aa#32,
   0xd62f105d#32, 0x02441453#32, 0xd8a1e681#32, 0xe7d3fbc8#32,
   0x21e1cde6#32, 0xc33707d6#32, 0xf4d50d87#32, 0x455a14ed#32,
   0xa9e3e905#32, 0xfcefa3f8#32, 0x676f02d9#32, 0x8d2a4c8a#32]

/-- The round constants `T` of the table of R173, entries 32 to 47. -/
def md5T2 : List (BitVec 32) :=
  [0xfffa3942#32, 0x8771f681#32, 0x6d9d6122#32, 0xfde5380c#32,
   0xa4beea44#32, 0x4bdecfa9#32, 0xf6bb4b60#32, 0xbebfbc70#32,
   0x289b7ec6#32, 0xeaa127fa#32, 0xd4ef3085#32, 0x04881d05#32,
   0xd9d4d039#32, 0xe6db99e5#32, 0x1fa27cf8#32, 0xc4ac5665#32]

/-- The round constants `T` of the table of R173, entries 48 to 63. -/
def md5T3 : List (BitVec 32) :=
  [0xf4292244#32, 0x432aff97#32, 0xab9423a7#32, 0xfc93a039#32,
   0x655b59c3#32, 0x8f0ccc92#32, 0xffeff47d#32, 0x85845dd1#32,
   0x6fa87e4f#32, 0xfe2ce6e0#32, 0xa3014314#32, 0x4e0811a1#32,
   0xf7537e82#32, 0xbd3af235#32, 0x2ad7d2bb#32, 0xeb86d391#32]

/-- The round constants `T` of the table of R173. -/
def md5T : List (BitVec 32) := md5T0 ++ md5T1 ++ md5T2 ++ md5T3

/-- Round `i` on the block words `X` (R174). -/
def md5Round (X : List Word) (s : Md5State) (i : Nat) : Md5State :=
  let t := s.a + md5F i s.b s.c s.d + wordAt md5T i + wordAt X (md5G i)
  ⟨s.d, s.b + rotl t (md5S i), s.b, s.c⟩

/-- `MD5Compress(h, blk)` (R174). -/
def md5Compress (h : Md5State) (blk : Bytes) : Md5State :=
  let X := (List.range 16).map fun j => readLE 32 blk (4 * j)
  let s := (List.range 64).foldl (md5Round X) h
  ⟨h.a + s.a, h.b + s.b, h.c + s.c, h.d + s.d⟩

/-- `MD5(m)`, 16 bytes (R175). -/
def md5 (m : Bytes) : Bytes :=
  let h := mdIterate md5Compress 64 md5IV (mdPad m 64 8 .little)
  [h.a, h.b, h.c, h.d].flatMap bytesLE

/-! ### SHA-1 -/

/-- The five words of the SHA-1 state (R181). -/
structure Sha1State where
  a : Word
  b : Word
  c : Word
  d : Word
  e : Word
  deriving DecidableEq, Repr

/-- IV_SHA1 (R181). -/
def sha1IV : Sha1State :=
  ⟨0x67452301#32, 0xEFCDAB89#32, 0x98BADCFE#32, 0x10325476#32, 0xC3D2E1F0#32⟩

/-- The round function `f_t`: Ch, Parity, Maj, Parity (R182). -/
def sha1F (t : Nat) (b c d : Word) : Word :=
  if t < 20 then (b &&& c) ^^^ (~~~b &&& d)
  else if t < 40 then b ^^^ c ^^^ d
  else if t < 60 then (b &&& c) ^^^ (b &&& d) ^^^ (c &&& d)
  else b ^^^ c ^^^ d

/-- The round constant `k_t` (R182). -/
def sha1K (t : Nat) : Word :=
  if t < 20 then 0x5A827999#32
  else if t < 40 then 0x6ED9EBA1#32
  else if t < 60 then 0x8F1BBCDC#32
  else 0xCA62C1D6#32

/-- `n` further words of the message schedule, the newest word first: `W[t-j]` is entry `j - 1` (R183). -/
def sha1Extend : Nat → List Word → List Word
  | 0, ws => ws
  | n + 1, ws =>
    sha1Extend n (rotl (wordAt ws 2 ^^^ wordAt ws 7 ^^^ wordAt ws 13 ^^^ wordAt ws 15) 1 :: ws)

/-- The message schedule `W[0..79]` of a block (R183). -/
def sha1Schedule (blk : Bytes) : List Word :=
  (sha1Extend 64 ((List.range 16).map fun t => readBE 32 blk (4 * t)).reverse).reverse

/-- One round with the schedule word `w` of round `t` (R183). -/
def sha1Round (s : Sha1State) (wt : Word × Nat) : Sha1State :=
  let x := rotl s.a 5 + sha1F wt.2 s.b s.c s.d + s.e + sha1K wt.2 + wt.1
  ⟨x, s.a, rotl s.b 30, s.c, s.d⟩

/-- `SHA1Compress(h, blk)` (R183). -/
def sha1Compress (h : Sha1State) (blk : Bytes) : Sha1State :=
  let s := (sha1Schedule blk).zipIdx.foldl sha1Round h
  ⟨h.a + s.a, h.b + s.b, h.c + s.c, h.d + s.d, h.e + s.e⟩

/-- `SHA1(m)`, 20 bytes (R184). -/
def sha1 (m : Bytes) : Bytes :=
  let h := mdIterate sha1Compress 64 sha1IV (mdPad m 64 8 .big)
  [h.a, h.b, h.c, h.d, h.e].flatMap bytesBE

end Sys2Proof.Machine
end

