-- ==== Sys2Proof/Machine/Murmur3.lean ====
section
/-! DEFINITION. murmur3_hash: MurmurHash3 x86_32 and x64_128 of 46_murmur3_xxhash.md (R310 to R316). -/

namespace Sys2Proof.Machine

/-- `fmix32` (R310). -/
def fmix32 (h : Word) : Word :=
  xorShift (xorShift (xorShift h 16 * 0x85ebca6b#32) 13 * 0xc2b2ae35#32) 16

/-- The scrambling of a lane word `k` (R311). -/
def murmur32Mix (k : Word) : Word := rotl (k * 0xcc9e2d51#32) 15 * 0x1b873593#32

/-- One 4-byte stride of the body (R311). -/
def murmur32Body (h : Word) (b : Bytes) : Word :=
  rotl (h ^^^ murmur32Mix (readLE 32 b 0)) 13 * 5#32 + 0xe6546b64#32

/-- The tail of 0 to 3 bytes (R311). -/
def murmur32Tail (h : Word) (t : Bytes) : Word :=
  if t.length = 0 then h else h ^^^ murmur32Mix (BitVec.ofNat 32 (natLE t))

/-- `Murmur3_32(m, seed)` (R312). -/
def murmur3x32 (m : Bytes) (seed : Word) : Word :=
  let n := m.length
  let h := (blocks 4 (n / 4) m).foldl murmur32Body seed
  let h := murmur32Tail h (m.drop (4 * (n / 4)))
  fmix32 (h ^^^ BitVec.ofNat 32 n)

/-- `fmix64` (R313). -/
def fmix64 (k : Word64) : Word64 :=
  xorShift (xorShift (xorShift k 33 * 0xff51afd7ed558ccd#64) 33 * 0xc4ceb9fe1a85ec53#64) 33

/-- The constant `c1` of x64_128 (R314). -/
def murmur128C1 : Word64 := 0x87c37b91114253d5#64
/-- The constant `c2` of x64_128 (R314). -/
def murmur128C2 : Word64 := 0x4cf5ad432745937f#64

/-- The scrambling of lane 1 (R314, R315). -/
def murmur128Mix1 (k : Word64) : Word64 := rotl (k * murmur128C1) 31 * murmur128C2
/-- The scrambling of lane 2 (R314, R315). -/
def murmur128Mix2 (k : Word64) : Word64 := rotl (k * murmur128C2) 33 * murmur128C1

/-- One 16-byte stride of the body on the lanes `(h1, h2)` (R314). -/
def murmur128Body (h : Word64 × Word64) (b : Bytes) : Word64 × Word64 :=
  let h1 := (rotl (h.1 ^^^ murmur128Mix1 (readLE 64 b 0)) 27 + h.2) * 5#64 + 0x52dce729#64
  let h2 := (rotl (h.2 ^^^ murmur128Mix2 (readLE 64 b 8)) 31 + h1) * 5#64 + 0x38495ab5#64
  (h1, h2)

/-- The tail of 0 to 15 bytes (R315). -/
def murmur128Tail (h : Word64 × Word64) (t : Bytes) : Word64 × Word64 :=
  let k1 := BitVec.ofNat 64 (natLE (t.take 8))
  let k2 := BitVec.ofNat 64 (natLE (t.drop 8))
  (if t.length > 0 then h.1 ^^^ murmur128Mix1 k1 else h.1,
   if t.length > 8 then h.2 ^^^ murmur128Mix2 k2 else h.2)

/-- `Murmur3_128(m, seed)`, the pair `(low, high)` (R316). -/
def murmur3x128 (m : Bytes) (seed : Word) : Word64 × Word64 :=
  let n := m.length
  let s := seed.setWidth 64
  let h := (blocks 16 (n / 16) m).foldl murmur128Body (s, s)
  let h := murmur128Tail h (m.drop (16 * (n / 16)))
  let h1 := h.1 ^^^ BitVec.ofNat 64 n
  let h2 := h.2 ^^^ BitVec.ofNat 64 n
  let h1 := h1 + h2
  let h2 := h2 + h1
  let h1 := fmix64 h1
  let h2 := fmix64 h2
  let h1 := h1 + h2
  (h1, h2 + h1)

end Sys2Proof.Machine
end

