-- ==== Sys2Proof/Machine/Sha2.lean ====
section
/-! DEFINITION. sha256_core and sha384_core: the algorithms of 42_sha256_sha384.md (R200 to R213). The
two cores share one schedule and one round, over words of 32 and of 64 bits. -/

namespace Sys2Proof.Machine

/-- The eight words of a SHA-2 state (R200, R212). -/
structure Sha2State (w : Nat) where
  a : BitVec w
  b : BitVec w
  c : BitVec w
  d : BitVec w
  e : BitVec w
  f : BitVec w
  g : BitVec w
  h : BitVec w
  deriving DecidableEq, Repr

/-- What tells SHA-256 from SHA-512: the rotation amounts of the sigma functions (two rotations and a
third rotation or a shift) and the round constants (R201, R202, R211). -/
structure Sha2Core (w : Nat) where
  Sigma0 : Nat × Nat × Nat
  Sigma1 : Nat × Nat × Nat
  sigma0 : Nat × Nat × Nat
  sigma1 : Nat × Nat × Nat
  K : List (BitVec w)

/-- `Sigma`: the xor of three rotations (R201, R211). -/
def bigSigma {w : Nat} (r : Nat × Nat × Nat) (x : BitVec w) : BitVec w :=
  rotr x r.1 ^^^ rotr x r.2.1 ^^^ rotr x r.2.2

/-- `sigma`: the xor of two rotations and a shift (R201, R211). -/
def smallSigma {w : Nat} (r : Nat × Nat × Nat) (x : BitVec w) : BitVec w :=
  rotr x r.1 ^^^ rotr x r.2.1 ^^^ (x >>> r.2.2)

/-- `Ch(e, f, g)` (R201). -/
def sha2Ch {w : Nat} (e f g : BitVec w) : BitVec w := (e &&& f) ^^^ (~~~e &&& g)

/-- `Maj(a, b, c)` (R201). -/
def sha2Maj {w : Nat} (a b c : BitVec w) : BitVec w := (a &&& b) ^^^ (a &&& c) ^^^ (b &&& c)

/-- `n` further schedule words, the newest first: `W[t-j]` is entry `j - 1` (R203, R212). -/
def sha2Extend {w : Nat} (core : Sha2Core w) : Nat → List (BitVec w) → List (BitVec w)
  | 0, ws => ws
  | n + 1, ws =>
    sha2Extend core n
      ((smallSigma core.sigma1 (wordAt ws 1) + wordAt ws 6 + smallSigma core.sigma0 (wordAt ws 14) +
        wordAt ws 15) :: ws)

/-- The message schedule of a block: 16 big-endian words, extended to one word a round (R203, R212). -/
def sha2Schedule {w : Nat} (core : Sha2Core w) (blk : Bytes) : List (BitVec w) :=
  (sha2Extend core (core.K.length - 16)
    ((List.range 16).map fun t => readBE w blk (w / 8 * t)).reverse).reverse

/-- One round with its constant and schedule word (R204, R212). -/
def sha2Round {w : Nat} (core : Sha2Core w) (s : Sha2State w) (kw : BitVec w × BitVec w) :
    Sha2State w :=
  let t1 := s.h + bigSigma core.Sigma1 s.e + sha2Ch s.e s.f s.g + kw.1 + kw.2
  let t2 := bigSigma core.Sigma0 s.a + sha2Maj s.a s.b s.c
  ⟨t1 + t2, s.a, s.b, s.c, s.d + t1, s.e, s.f, s.g⟩

/-- The compression function (R204, R212). -/
def sha2Compress {w : Nat} (core : Sha2Core w) (h : Sha2State w) (blk : Bytes) : Sha2State w :=
  let s := (core.K.zip (sha2Schedule core blk)).foldl (sha2Round core) h
  ⟨h.a + s.a, h.b + s.b, h.c + s.c, h.d + s.d, h.e + s.e, h.f + s.f, h.g + s.g, h.h + s.h⟩

/-- The big-endian bytes of the eight words (R205, R213). -/
def sha2Serialise {w : Nat} (h : Sha2State w) : Bytes :=
  [h.a, h.b, h.c, h.d, h.e, h.f, h.g, h.h].flatMap bytesBE

/-- The SHA-256 round constants of R202, entries 0 to 15. -/
def k2560 : List (BitVec 32) :=
  [0x428a2f98#32, 0x71374491#32, 0xb5c0fbcf#32, 0xe9b5dba5#32,
   0x3956c25b#32, 0x59f111f1#32, 0x923f82a4#32, 0xab1c5ed5#32,
   0xd807aa98#32, 0x12835b01#32, 0x243185be#32, 0x550c7dc3#32,
   0x72be5d74#32, 0x80deb1fe#32, 0x9bdc06a7#32, 0xc19bf174#32]

/-- The SHA-256 round constants of R202, entries 16 to 31. -/
def k2561 : List (BitVec 32) :=
  [0xe49b69c1#32, 0xefbe4786#32, 0x0fc19dc6#32, 0x240ca1cc#32,
   0x2de92c6f#32, 0x4a7484aa#32, 0x5cb0a9dc#32, 0x76f988da#32,
   0x983e5152#32, 0xa831c66d#32, 0xb00327c8#32, 0xbf597fc7#32,
   0xc6e00bf3#32, 0xd5a79147#32, 0x06ca6351#32, 0x14292967#32]

/-- The SHA-256 round constants of R202, entries 32 to 47. -/
def k2562 : List (BitVec 32) :=
  [0x27b70a85#32, 0x2e1b2138#32, 0x4d2c6dfc#32, 0x53380d13#32,
   0x650a7354#32, 0x766a0abb#32, 0x81c2c92e#32, 0x92722c85#32,
   0xa2bfe8a1#32, 0xa81a664b#32, 0xc24b8b70#32, 0xc76c51a3#32,
   0xd192e819#32, 0xd6990624#32, 0xf40e3585#32, 0x106aa070#32]

/-- The SHA-256 round constants of R202, entries 48 to 63. -/
def k2563 : List (BitVec 32) :=
  [0x19a4c116#32, 0x1e376c08#32, 0x2748774c#32, 0x34b0bcb5#32,
   0x391c0cb3#32, 0x4ed8aa4a#32, 0x5b9cca4f#32, 0x682e6ff3#32,
   0x748f82ee#32, 0x78a5636f#32, 0x84c87814#32, 0x8cc70208#32,
   0x90befffa#32, 0xa4506ceb#32, 0xbef9a3f7#32, 0xc67178f2#32]

/-- The SHA-256 round constants of R202. -/
def k256 : List (BitVec 32) := k2560 ++ k2561 ++ k2562 ++ k2563

/-- The SHA-512 round constants of R211, entries 0 to 15. -/
def k5120 : List (BitVec 64) :=
  [0x428a2f98d728ae22#64, 0x7137449123ef65cd#64, 0xb5c0fbcfec4d3b2f#64, 0xe9b5dba58189dbbc#64,
   0x3956c25bf348b538#64, 0x59f111f1b605d019#64, 0x923f82a4af194f9b#64, 0xab1c5ed5da6d8118#64,
   0xd807aa98a3030242#64, 0x12835b0145706fbe#64, 0x243185be4ee4b28c#64, 0x550c7dc3d5ffb4e2#64,
   0x72be5d74f27b896f#64, 0x80deb1fe3b1696b1#64, 0x9bdc06a725c71235#64, 0xc19bf174cf692694#64]

/-- The SHA-512 round constants of R211, entries 16 to 31. -/
def k5121 : List (BitVec 64) :=
  [0xe49b69c19ef14ad2#64, 0xefbe4786384f25e3#64, 0x0fc19dc68b8cd5b5#64, 0x240ca1cc77ac9c65#64,
   0x2de92c6f592b0275#64, 0x4a7484aa6ea6e483#64, 0x5cb0a9dcbd41fbd4#64, 0x76f988da831153b5#64,
   0x983e5152ee66dfab#64, 0xa831c66d2db43210#64, 0xb00327c898fb213f#64, 0xbf597fc7beef0ee4#64,
   0xc6e00bf33da88fc2#64, 0xd5a79147930aa725#64, 0x06ca6351e003826f#64, 0x142929670a0e6e70#64]

/-- The SHA-512 round constants of R211, entries 32 to 47. -/
def k5122 : List (BitVec 64) :=
  [0x27b70a8546d22ffc#64, 0x2e1b21385c26c926#64, 0x4d2c6dfc5ac42aed#64, 0x53380d139d95b3df#64,
   0x650a73548baf63de#64, 0x766a0abb3c77b2a8#64, 0x81c2c92e47edaee6#64, 0x92722c851482353b#64,
   0xa2bfe8a14cf10364#64, 0xa81a664bbc423001#64, 0xc24b8b70d0f89791#64, 0xc76c51a30654be30#64,
   0xd192e819d6ef5218#64, 0xd69906245565a910#64, 0xf40e35855771202a#64, 0x106aa07032bbd1b8#64]

/-- The SHA-512 round constants of R211, entries 48 to 63. -/
def k5123 : List (BitVec 64) :=
  [0x19a4c116b8d2d0c8#64, 0x1e376c085141ab53#64, 0x2748774cdf8eeb99#64, 0x34b0bcb5e19b48a8#64,
   0x391c0cb3c5c95a63#64, 0x4ed8aa4ae3418acb#64, 0x5b9cca4f7763e373#64, 0x682e6ff3d6b2b8a3#64,
   0x748f82ee5defb2fc#64, 0x78a5636f43172f60#64, 0x84c87814a1f0ab72#64, 0x8cc702081a6439ec#64,
   0x90befffa23631e28#64, 0xa4506cebde82bde9#64, 0xbef9a3f7b2c67915#64, 0xc67178f2e372532b#64]

/-- The SHA-512 round constants of R211, entries 64 to 79. -/
def k5124 : List (BitVec 64) :=
  [0xca273eceea26619c#64, 0xd186b8c721c0c207#64, 0xeada7dd6cde0eb1e#64, 0xf57d4f7fee6ed178#64,
   0x06f067aa72176fba#64, 0x0a637dc5a2c898a6#64, 0x113f9804bef90dae#64, 0x1b710b35131c471b#64,
   0x28db77f523047d84#64, 0x32caab7b40c72493#64, 0x3c9ebe0a15c9bebc#64, 0x431d67c49c100d4c#64,
   0x4cc5d4becb3e42b6#64, 0x597f299cfc657e2a#64, 0x5fcb6fab3ad6faec#64, 0x6c44198c4a475817#64]

/-- The SHA-512 round constants of R211. -/
def k512 : List (BitVec 64) := k5120 ++ k5121 ++ k5122 ++ k5123 ++ k5124

/-- The SHA-256 functions and constants (R201, R202). -/
def sha256Core : Sha2Core 32 := ⟨(2, 13, 22), (6, 11, 25), (7, 18, 3), (17, 19, 10), k256⟩

/-- The SHA-512 functions and constants, used by SHA-384 (R211). -/
def sha512Core : Sha2Core 64 := ⟨(28, 34, 39), (14, 18, 41), (1, 8, 7), (19, 61, 6), k512⟩

/-- IV_SHA256 (R200). -/
def sha256IV : Sha2State 32 :=
  ⟨0x6a09e667#32, 0xbb67ae85#32, 0x3c6ef372#32, 0xa54ff53a#32,
   0x510e527f#32, 0x9b05688c#32, 0x1f83d9ab#32, 0x5be0cd19#32⟩

/-- IV_SHA384 (R212). -/
def sha384IV : Sha2State 64 :=
  ⟨0xcbbb9d5dc1059ed8#64, 0x629a292a367cd507#64, 0x9159015a3070dd17#64, 0x152fecd8f70e5939#64,
   0x67332667ffc00b31#64, 0x8eb44a8768581511#64, 0xdb0c2e0d64f98fa7#64, 0x47b5481dbefa4fa4#64⟩

/-- `SHA256(m)`, 32 bytes (R205). -/
def sha256 (m : Bytes) : Bytes :=
  sha2Serialise (mdIterate (sha2Compress sha256Core) 64 sha256IV (mdPad m 64 8 .big))

/-- `SHA384(m)`, the first 48 of 64 bytes (R213). -/
def sha384 (m : Bytes) : Bytes :=
  (sha2Serialise (mdIterate (sha2Compress sha512Core) 128 sha384IV (mdPad m 128 16 .big))).take 48

end Sys2Proof.Machine
end

