-- ==== Sys2Proof/Machine/SipHash.lean ====
section
/-! DEFINITION. siphash_core: the algorithm of 45_siphash.md (R290 to R293). -/

namespace Sys2Proof.Machine

/-- The four words of the SipHash state (R290). -/
structure SipState where
  v0 : Word64
  v1 : Word64
  v2 : Word64
  v3 : Word64
  deriving DecidableEq, Repr

/-- The initial state for the key words `k0`, `k1` (R290). -/
def sipInit (k0 k1 : Word64) : SipState :=
  ⟨k0 ^^^ 0x736f6d6570736575#64, k1 ^^^ 0x646f72616e646f6d#64,
   k0 ^^^ 0x6c7967656e657261#64, k1 ^^^ 0x7465646279746573#64⟩

/-- `SipRound` (R291). -/
def sipRound (s : SipState) : SipState :=
  let v0 := s.v0 + s.v1
  let v1 := rotl s.v1 13 ^^^ v0
  let v0 := rotl v0 32
  let v2 := s.v2 + s.v3
  let v3 := rotl s.v3 16 ^^^ v2
  let v0 := v0 + v3
  let v3 := rotl v3 21 ^^^ v0
  let v2 := v2 + v1
  let v1 := rotl v1 17 ^^^ v2
  let v2 := rotl v2 32
  ⟨v0, v1, v2, v3⟩

/-- `n` times `SipRound`. -/
def sipRounds : Nat → SipState → SipState
  | 0, s => s
  | n + 1, s => sipRounds n (sipRound s)

/-- Absorb one message word with `c` rounds (R293). -/
def sipAbsorb (c : Nat) (s : SipState) (x : Word64) : SipState :=
  let s := sipRounds c { s with v3 := s.v3 ^^^ x }
  { s with v0 := s.v0 ^^^ x }

/-- The full words of a message (R292). -/
def sipWords (m : Bytes) : List Word64 := (blocks 8 (m.length / 8) m).map fun b => readLE 64 b 0

/-- The last word: the tail bytes, and the length mod 256 in byte 7 (R292). -/
def sipLast (m : Bytes) : Word64 :=
  (BitVec.ofNat 64 (m.length % 256) <<< 56) |||
    BitVec.ofNat 64 (natLE (slice m (8 * (m.length / 8)) (m.length % 8)))

/-- `SipHash(c, d, k0, k1, m)` (R293). -/
def sipHash (c d : Nat) (k0 k1 : Word64) (m : Bytes) : Word64 :=
  let s := (sipWords m ++ [sipLast m]).foldl (sipAbsorb c) (sipInit k0 k1)
  let s := sipRounds d { s with v2 := s.v2 ^^^ 0xff#64 }
  s.v0 ^^^ s.v1 ^^^ s.v2 ^^^ s.v3

end Sys2Proof.Machine
end

