-- ==== Sys2Proof/Machine/XxHash.lean ====
section
/-! DEFINITION. xxhash_core: XXH32 and XXH64 of 46_murmur3_xxhash.md (R320 to R327). -/

namespace Sys2Proof.Machine

/-- The four accumulator lanes (R321, R327). -/
structure XxLanes (w : Nat) where
  v1 : BitVec w
  v2 : BitVec w
  v3 : BitVec w
  v4 : BitVec w
  deriving DecidableEq, Repr

/-- The lanes folded into one word by rotations 1, 7, 12, 18 (R321, R327). -/
def xxConverge {w : Nat} (v : XxLanes w) : BitVec w :=
  rotl v.v1 1 + rotl v.v2 7 + rotl v.v3 12 + rotl v.v4 18

/-- P1 of R320. -/
def xxP1 : Word := 0x9E3779B1#32
/-- P2 of R320. -/
def xxP2 : Word := 0x85EBCA77#32
/-- P3 of R320. -/
def xxP3 : Word := 0xC2B2AE3D#32
/-- P4 of R320. -/
def xxP4 : Word := 0x27D4EB2F#32
/-- P5 of R320. -/
def xxP5 : Word := 0x165667B1#32

/-- `round32` (R320). -/
def xxRound32 (acc x : Word) : Word := rotl (acc + x * xxP2) 13 * xxP1

/-- One 16-byte stride (R321). -/
def xxStride32 (v : XxLanes 32) (b : Bytes) : XxLanes 32 :=
  ⟨xxRound32 v.v1 (readLE 32 b 0), xxRound32 v.v2 (readLE 32 b 4),
   xxRound32 v.v3 (readLE 32 b 8), xxRound32 v.v4 (readLE 32 b 12)⟩

/-- The value before the tail: the lanes of 16 bytes or more, or the seed (R321). -/
def xxBody32 (m : Bytes) (seed : Word) : Word :=
  if m.length ≥ 16 then
    xxConverge ((blocks 16 (m.length / 16) m).foldl xxStride32
      ⟨seed + xxP1 + xxP2, seed + xxP2, seed, seed - xxP1⟩)
  else seed + xxP5

/-- The tail, the bytes after the last stride: whole words, then single bytes (R321). -/
def xxTail32 (h : Word) (t : Bytes) : Word :=
  let h := (blocks 4 (t.length / 4) t).foldl
    (fun h b => rotl (h + readLE 32 b 0 * xxP3) 17 * xxP4) h
  (t.drop (4 * (t.length / 4))).foldl (fun h b => rotl (h + b.setWidth 32 * xxP5) 11 * xxP1) h

/-- `XXH32(m, seed)` (R321, R322). -/
def xxh32 (m : Bytes) (seed : Word) : Word :=
  let n := m.length
  let h := xxTail32 (xxBody32 m seed + BitVec.ofNat 32 n) (m.drop (16 * (n / 16)))
  xorShift (xorShift (xorShift h 15 * xxP2) 13 * xxP3) 16

/-- Q1 of R325. -/
def xxQ1 : Word64 := 0x9E3779B185EBCA87#64
/-- Q2 of R325. -/
def xxQ2 : Word64 := 0xC2B2AE3D27D4EB4F#64
/-- Q3 of R325. -/
def xxQ3 : Word64 := 0x165667B19E3779F9#64
/-- Q4 of R325. -/
def xxQ4 : Word64 := 0x85EBCA77C2B2AE63#64
/-- Q5 of R325. -/
def xxQ5 : Word64 := 0x27D4EB2F165667C5#64

/-- `round64` (R326). -/
def xxRound64 (acc x : Word64) : Word64 := rotl (acc + x * xxQ2) 31 * xxQ1

/-- `merge64` (R326). -/
def xxMerge64 (h v : Word64) : Word64 := (h ^^^ xxRound64 0 v) * xxQ1 + xxQ4

/-- One 32-byte stride (R327). -/
def xxStride64 (v : XxLanes 64) (b : Bytes) : XxLanes 64 :=
  ⟨xxRound64 v.v1 (readLE 64 b 0), xxRound64 v.v2 (readLE 64 b 8),
   xxRound64 v.v3 (readLE 64 b 16), xxRound64 v.v4 (readLE 64 b 24)⟩

/-- The value before the tail: the merged lanes of 32 bytes or more, or the seed (R327). -/
def xxBody64 (m : Bytes) (seed : Word64) : Word64 :=
  if m.length ≥ 32 then
    let v := (blocks 32 (m.length / 32) m).foldl xxStride64
      ⟨seed + xxQ1 + xxQ2, seed + xxQ2, seed, seed - xxQ1⟩
    [v.v1, v.v2, v.v3, v.v4].foldl xxMerge64 (xxConverge v)
  else seed + xxQ5

/-- The tail of fewer than 32 bytes: 8-byte words, at most one 4-byte word, single bytes (R327). -/
def xxTail64 (h : Word64) (t : Bytes) : Word64 :=
  let h := (blocks 8 (t.length / 8) t).foldl
    (fun h b => rotl (h ^^^ xxRound64 0 (readLE 64 b 0)) 27 * xxQ1 + xxQ4) h
  let t := t.drop (8 * (t.length / 8))
  let h := (blocks 4 (t.length / 4) t).foldl
    (fun h b => rotl (h ^^^ ((readLE 32 b 0).setWidth 64 * xxQ1)) 23 * xxQ2 + xxQ3) h
  (t.drop (4 * (t.length / 4))).foldl (fun h b => rotl (h ^^^ (b.setWidth 64 * xxQ5)) 11 * xxQ1) h

/-- `XXH64(m, seed)` (R327). -/
def xxh64 (m : Bytes) (seed : Word64) : Word64 :=
  let n := m.length
  let h := xxTail64 (xxBody64 m seed + BitVec.ofNat 64 n) (m.drop (32 * (n / 32)))
  xorShift (xorShift (xorShift h 33 * xxQ2) 29 * xxQ3) 32

end Sys2Proof.Machine
end

