-- ==== Sys2Proof/Machine/Digest.lean ====
section
/-! DEFINITION. The dispatch `H(ALG, p, a, m)` to the algorithm functions and the bytes of their results
(40_common.md R147, 20_memory.md R77). -/

namespace Sys2Proof.Machine

/-- `seed32` of R147. -/
def seed32 (p : Params) (a : Bytes) : Word := if p.mode = 1 then readLE 32 a 0 else 0

/-- `seed64` of R147. -/
def seed64 (p : Params) (a : Bytes) : Word64 := if p.mode = 1 then readLE 64 a 0 else 0

/-- A 128-bit pair as bytes: low word first (R77). -/
def pairBytes (v : Word64 × Word64) : Bytes := bytesLE v.1 ++ bytesLE v.2

/-- CITY64 by seed mode (R147). -/
def city64Mode (p : Params) (a m : Bytes) : Word64 :=
  if p.mode = 0 then city64 m
  else if p.mode = 1 then city64WithSeed m (readLE 64 a 0)
  else city64WithSeeds m (readLE 64 a 0) (readLE 64 a 8)

/-- CITY128 by seed mode (R147). -/
def city128Mode (p : Params) (a m : Bytes) : Word64 × Word64 :=
  if p.mode = 0 then city128 m else city128WithSeed m (readLE 64 a 0) (readLE 64 a 8)

/-- FARM64 by seed mode (R147). -/
def farm64Mode (p : Params) (a m : Bytes) : Word64 :=
  if p.mode = 0 then farm64 m
  else if p.mode = 1 then farm64WithSeed m (readLE 64 a 0)
  else farm64WithSeeds m (readLE 64 a 0) (readLE 64 a 8)

/-- `H(ALG, p, a, m)` (R147): a function of the algorithm, its parameters, the AUX bytes and the message
only (R150). -/
def digest (alg : Alg) (p : Params) (a m : Bytes) : Bytes :=
  match alg with
  | .md5 => md5 m
  | .sha1 => sha1 m
  | .sha256 => sha256 m
  | .sha384 => sha384 m
  | .blake2b => blake2b m a p.outlen
  | .blake3 => blake3 m p.outlen
  | .siphash => bytesLE (sipHash p.c p.d (readLE 64 a 0) (readLE 64 a 8) m)
  | .murmur3_32 => bytesLE (murmur3x32 m (seed32 p a))
  | .murmur3_128 => pairBytes (murmur3x128 m (seed32 p a))
  | .xxh32 => bytesLE (xxh32 m (seed32 p a))
  | .xxh64 => bytesLE (xxh64 m (seed64 p a))
  | .city64 => bytesLE (city64Mode p a m)
  | .city128 => pairBytes (city128Mode p a m)
  | .farm64 => bytesLE (farm64Mode p a m)

end Sys2Proof.Machine
end

