-- ==== Sys2Proof/Machine/Flags.lean ====
section
/-! DEFINITION. The one flag, MATCH (10_state.md R36), and the views of the register bits: STATUS (R48),
CTRL (R47) and the IRQ output (60_exceptions.md R440). -/

namespace Sys2Proof.Machine

/-- The value VERIFY writes to MATCH: the computed digest equals the expected one (R36, R141). -/
def matchFlag (computed expected : Bytes) : Bool := computed == expected

/-- One register bit at position `n`. -/
def bitAt (b : Bool) (n : Nat) : Word := (BitVec.ofBool b).setWidth 32 <<< n

/-- STATUS as the host reads it (R48): ERRCODE in 15:8, MATCH 3, ERR 2, DONE 1, BUSY 0, the rest 0. -/
def State.status (s : State) : Word :=
  (s.errCode.setWidth 32 <<< 8) ||| bitAt s.matched 3 ||| bitAt s.err 2 ||| bitAt s.done 1 |||
    bitAt s.busy 0

/-- CTRL as the host reads it (R47): only IRQ_EN, bit 2, reads back. -/
def State.ctrl (s : State) : Word := bitAt s.irqEn 2

/-- The interrupt output (R440). -/
def State.irq (s : State) : Bool := s.irqEn && (s.done || s.err)

end Sys2Proof.Machine
end

