-- ==== Sys2Proof/Machine/HashOps.lean ====
section
/-! DEFINITION. The five hash operations for any algorithm, as effects on the state they start from
(40_common.md R140 to R144). The checks stand in the order of 60_exceptions.md R434. -/

namespace Sys2Proof.Machine

/-- The operand ranges of HASH and VERIFY: message, AUX bytes and output or expected digest (R140, R141). -/
def hashRanges (a : Alg) (o : Operands) (s : State) : Bool :=
  s.inRange o.src.toNat o.len.toNat && s.inRange o.aux.toNat (auxLen a o) &&
    s.inRange o.dst.toNat (outLen a (decodeParams a o))

/-- The digest of the message at SRC with the AUX bytes (R140: `H(ALG, p, a, m)`). -/
def hashResult (a : Alg) (o : Operands) (s : State) : Bytes :=
  digest a (decodeParams a o) (s.memRead o.aux.toNat (auxLen a o))
    (s.memRead o.src.toNat o.len.toNat)

/-- HASH (R140). -/
def hashEffect (a : Alg) (o : Operands) (s : State) : Except ErrCode Effect :=
  match fieldFault .hash (some a) o with
  | some e => .error e
  | none =>
    if hashRanges a o s then .ok { store := some (o.dst.toNat, hashResult a o s) }
    else .error .range

/-- VERIFY (R141). -/
def verifyEffect (a : Alg) (o : Operands) (s : State) : Except ErrCode Effect :=
  match fieldFault .verify (some a) o with
  | some e => .error e
  | none =>
    if hashRanges a o s then
      .ok { flag := some (matchFlag (hashResult a o s)
              (s.memRead o.dst.toNat (outLen a (decodeParams a o)))) }
    else .error .range

/-- The slot that INIT loads (R142). -/
def initSlot (a : Alg) (o : Operands) (s : State) : Slot :=
  ⟨.active, a, decodeParams a o, s.memRead o.aux.toNat (auxLen a o), []⟩

/-- INIT (R142). -/
def initEffect (a : Alg) (o : Operands) (s : State) : Except ErrCode Effect :=
  match fieldFault .init (some a) o with
  | some e => .error e
  | none =>
    if s.inRange o.aux.toNat (auxLen a o) then .ok { slot := some (o.ctx, initSlot a o s) }
    else .error .range

/-- The slot checks of UPDATE and FINAL: ACTIVE, then the same algorithm (R143, R144). -/
def slotFault (a : Alg) (c : Slot) : Option ErrCode :=
  if c.state ≠ .active then some .ctxState
  else if c.alg ≠ a then some .ctxAlg
  else none

/-- UPDATE (R143). -/
def updateEffect (a : Alg) (o : Operands) (s : State) : Except ErrCode Effect :=
  match fieldFault .update (some a) o with
  | some e => .error e
  | none =>
    let c := s.slot o.ctx
    match slotFault a c with
    | some e => .error e
    | none =>
      if !s.inRange o.src.toNat o.len.toNat then .error .range
      else if c.msg.length + o.len.toNat > Config.maxTotal then .error .length
      else .ok { slot := some (o.ctx, { c with msg := c.msg ++ s.memRead o.src.toNat o.len.toNat }) }

/-- FINAL (R144). -/
def finalEffect (a : Alg) (o : Operands) (s : State) : Except ErrCode Effect :=
  match fieldFault .final (some a) o with
  | some e => .error e
  | none =>
    let c := s.slot o.ctx
    match slotFault a c with
    | some e => .error e
    | none =>
      if s.inRange o.dst.toNat (outLen c.alg c.prm) then
        .ok { store := some (o.dst.toNat, digest c.alg c.prm c.aux c.msg)
              slot := some (o.ctx, { c with state := .finalized }) }
      else .error .range

end Sys2Proof.Machine
end

