-- ==== Sys2Proof/Machine/FinalCommands.lean ====
section
/-! DEFINITION. The FINAL commands, one meaning per algorithm (40_common.md, and the instruction forms of 41 to 47). -/

namespace Sys2Proof.Machine

/-- `final.md5` (R180). -/
def execFinalMd5 (o : Operands) (s : State) : Host.Outcome State Fault Refusal :=
  s.finish (finalEffect .md5 o s)

/-- `final.sha1` (R190). -/
def execFinalSha1 (o : Operands) (s : State) : Host.Outcome State Fault Refusal :=
  s.finish (finalEffect .sha1 o s)

/-- `final.sha256` (R210). -/
def execFinalSha256 (o : Operands) (s : State) : Host.Outcome State Fault Refusal :=
  s.finish (finalEffect .sha256 o s)

/-- `final.sha384` (R218). -/
def execFinalSha384 (o : Operands) (s : State) : Host.Outcome State Fault Refusal :=
  s.finish (finalEffect .sha384 o s)

/-- `final.blake2b` (R243). -/
def execFinalBlake2b (o : Operands) (s : State) : Host.Outcome State Fault Refusal :=
  s.finish (finalEffect .blake2b o s)

/-- `final.blake3` (R275). -/
def execFinalBlake3 (o : Operands) (s : State) : Host.Outcome State Fault Refusal :=
  s.finish (finalEffect .blake3 o s)

/-- `final.siphash` (R299). -/
def execFinalSiphash (o : Operands) (s : State) : Host.Outcome State Fault Refusal :=
  s.finish (finalEffect .siphash o s)

/-- `final.xxh32` (R334). -/
def execFinalXxh32 (o : Operands) (s : State) : Host.Outcome State Fault Refusal :=
  s.finish (finalEffect .xxh32 o s)

/-- `final.xxh64` (R339). -/
def execFinalXxh64 (o : Operands) (s : State) : Host.Outcome State Fault Refusal :=
  s.finish (finalEffect .xxh64 o s)

end Sys2Proof.Machine
end

