-- ==== Sys2Proof/Machine/HashCommands.lean ====
section
/-! DEFINITION. The HASH commands, one meaning per algorithm (40_common.md, and the instruction forms of 41 to 47). -/

namespace Sys2Proof.Machine

/-- `hash.md5` (R176). -/
def execHashMd5 (o : Operands) (s : State) : Host.Outcome State Fault Refusal :=
  s.finish (hashEffect .md5 o s)

/-- `hash.sha1` (R186). -/
def execHashSha1 (o : Operands) (s : State) : Host.Outcome State Fault Refusal :=
  s.finish (hashEffect .sha1 o s)

/-- `hash.sha256` (R206). -/
def execHashSha256 (o : Operands) (s : State) : Host.Outcome State Fault Refusal :=
  s.finish (hashEffect .sha256 o s)

/-- `hash.sha384` (R214). -/
def execHashSha384 (o : Operands) (s : State) : Host.Outcome State Fault Refusal :=
  s.finish (hashEffect .sha384 o s)

/-- `hash.blake2b` (R239). -/
def execHashBlake2b (o : Operands) (s : State) : Host.Outcome State Fault Refusal :=
  s.finish (hashEffect .blake2b o s)

/-- `hash.blake3` (R271). -/
def execHashBlake3 (o : Operands) (s : State) : Host.Outcome State Fault Refusal :=
  s.finish (hashEffect .blake3 o s)

/-- `hash.siphash` (R295). -/
def execHashSiphash (o : Operands) (s : State) : Host.Outcome State Fault Refusal :=
  s.finish (hashEffect .siphash o s)

/-- `hash.murmur3_32` (R317). -/
def execHashMurmur3_32 (o : Operands) (s : State) : Host.Outcome State Fault Refusal :=
  s.finish (hashEffect .murmur3_32 o s)

/-- `hash.murmur3_128` (R318). -/
def execHashMurmur3_128 (o : Operands) (s : State) : Host.Outcome State Fault Refusal :=
  s.finish (hashEffect .murmur3_128 o s)

/-- `hash.xxh32` (R330). -/
def execHashXxh32 (o : Operands) (s : State) : Host.Outcome State Fault Refusal :=
  s.finish (hashEffect .xxh32 o s)

/-- `hash.xxh64` (R335). -/
def execHashXxh64 (o : Operands) (s : State) : Host.Outcome State Fault Refusal :=
  s.finish (hashEffect .xxh64 o s)

/-- `hash.city64` (R375). -/
def execHashCity64 (o : Operands) (s : State) : Host.Outcome State Fault Refusal :=
  s.finish (hashEffect .city64 o s)

/-- `hash.city128` (R376). -/
def execHashCity128 (o : Operands) (s : State) : Host.Outcome State Fault Refusal :=
  s.finish (hashEffect .city128 o s)

/-- `hash.farm64` (R377). -/
def execHashFarm64 (o : Operands) (s : State) : Host.Outcome State Fault Refusal :=
  s.finish (hashEffect .farm64 o s)

end Sys2Proof.Machine
end

