-- ==== Sys2Proof/Machine/InitCommands.lean ====
section
/-! DEFINITION. The INIT commands, one meaning per algorithm (40_common.md, and the instruction forms of 41 to 47). -/

namespace Sys2Proof.Machine

/-- `init.md5` (R178). -/
def execInitMd5 (o : Operands) (s : State) : Host.Outcome State Fault Refusal :=
  s.finish (initEffect .md5 o s)

/-- `init.sha1` (R188). -/
def execInitSha1 (o : Operands) (s : State) : Host.Outcome State Fault Refusal :=
  s.finish (initEffect .sha1 o s)

/-- `init.sha256` (R208). -/
def execInitSha256 (o : Operands) (s : State) : Host.Outcome State Fault Refusal :=
  s.finish (initEffect .sha256 o s)

/-- `init.sha384` (R216). -/
def execInitSha384 (o : Operands) (s : State) : Host.Outcome State Fault Refusal :=
  s.finish (initEffect .sha384 o s)

/-- `init.blake2b` (R241). -/
def execInitBlake2b (o : Operands) (s : State) : Host.Outcome State Fault Refusal :=
  s.finish (initEffect .blake2b o s)

/-- `init.blake3` (R273). -/
def execInitBlake3 (o : Operands) (s : State) : Host.Outcome State Fault Refusal :=
  s.finish (initEffect .blake3 o s)

/-- `init.siphash` (R297). -/
def execInitSiphash (o : Operands) (s : State) : Host.Outcome State Fault Refusal :=
  s.finish (initEffect .siphash o s)

/-- `init.xxh32` (R332). -/
def execInitXxh32 (o : Operands) (s : State) : Host.Outcome State Fault Refusal :=
  s.finish (initEffect .xxh32 o s)

/-- `init.xxh64` (R337). -/
def execInitXxh64 (o : Operands) (s : State) : Host.Outcome State Fault Refusal :=
  s.finish (initEffect .xxh64 o s)

end Sys2Proof.Machine
end

