-- ==== Sys2Proof/Machine/Primitives.lean ====
section
/-! DEFINITION. The byte-codec primitives ROTL, ROTR, BSWAP and MUL128 (48_primitives.md R390 to R393). -/

namespace Sys2Proof.Machine

/-- The two operand ranges of a primitive on `n` bytes. -/
def primRanges (o : Operands) (s : State) (n : Nat) : Bool :=
  s.inRange o.src.toNat n && s.inRange o.dst.toNat n

/-- ROTL and ROTR, with the rotation they apply (R390, R391). -/
def rotateEffect (op : Op) (rot : {w : Nat} → BitVec w → Nat → BitVec w) (o : Operands) (s : State) :
    Except ErrCode Effect :=
  match fieldFault op none o with
  | some e => .error e
  | none =>
    if primRanges o s (opBytes o) then
      let x : BitVec (opWidth o) := readLE (opWidth o) (s.memRead o.src.toNat (opBytes o)) 0
      .ok { store := some (o.dst.toNat, bytesLE (rot x (rotAmount o))) }
    else .error .range

/-- BSWAP (R392): the operand's bytes in reverse order. -/
def bswapEffect (o : Operands) (s : State) : Except ErrCode Effect :=
  match fieldFault .bswap none o with
  | some e => .error e
  | none =>
    if primRanges o s (opBytes o) then
      .ok { store := some (o.dst.toNat, (s.memRead o.src.toNat (opBytes o)).reverse) }
    else .error .range

/-- The exact 256-bit product of two 16-byte little-endian operands (R393). -/
def mul128Product (a b : Bytes) : BitVec 256 :=
  (readLE 128 a 0).setWidth 256 * (readLE 128 b 0).setWidth 256

/-- MUL128 (R393). -/
def mul128Effect (o : Operands) (s : State) : Except ErrCode Effect :=
  match fieldFault .mul128 none o with
  | some e => .error e
  | none =>
    if s.inRange o.src.toNat 16 && s.inRange o.aux.toNat 16 && s.inRange o.dst.toNat 32 then
      .ok { store := some (o.dst.toNat,
              bytesLE (mul128Product (s.memRead o.src.toNat 16) (s.memRead o.aux.toNat 16))) }
    else .error .range

/-- `rotl` (R390). -/
def execRotl (o : Operands) (s : State) : Host.Outcome State Fault Refusal :=
  s.finish (rotateEffect .rotl rotl o s)

/-- `rotr` (R391). -/
def execRotr (o : Operands) (s : State) : Host.Outcome State Fault Refusal :=
  s.finish (rotateEffect .rotr rotr o s)

/-- `bswap` (R392). -/
def execBswap (o : Operands) (s : State) : Host.Outcome State Fault Refusal :=
  s.finish (bswapEffect o s)

/-- `mul128` (R393). -/
def execMul128 (o : Operands) (s : State) : Host.Outcome State Fault Refusal :=
  s.finish (mul128Effect o s)

end Sys2Proof.Machine
end

