-- ==== Sys2Proof/Machine/UpdateCommands.lean ====
section
/-! DEFINITION. The UPDATE commands, one meaning per algorithm (40_common.md, and the instruction forms of 41 to 47). -/

namespace Sys2Proof.Machine

/-- `update.md5` (R179). -/
def execUpdateMd5 (o : Operands) (s : State) : Host.Outcome State Fault Refusal :=
  s.finish (updateEffect .md5 o s)

/-- `update.sha1` (R189). -/
def execUpdateSha1 (o : Operands) (s : State) : Host.Outcome State Fault Refusal :=
  s.finish (updateEffect .sha1 o s)

/-- `update.sha256` (R209). -/
def execUpdateSha256 (o : Operands) (s : State) : Host.Outcome State Fault Refusal :=
  s.finish (updateEffect .sha256 o s)

/-- `update.sha384` (R217). -/
def execUpdateSha384 (o : Operands) (s : State) : Host.Outcome State Fault Refusal :=
  s.finish (updateEffect .sha384 o s)

/-- `update.blake2b` (R242). -/
def execUpdateBlake2b (o : Operands) (s : State) : Host.Outcome State Fault Refusal :=
  s.finish (updateEffect .blake2b o s)

/-- `update.blake3` (R274). -/
def execUpdateBlake3 (o : Operands) (s : State) : Host.Outcome State Fault Refusal :=
  s.finish (updateEffect .blake3 o s)

/-- `update.siphash` (R298). -/
def execUpdateSiphash (o : Operands) (s : State) : Host.Outcome State Fault Refusal :=
  s.finish (updateEffect .siphash o s)

/-- `update.xxh32` (R333). -/
def execUpdateXxh32 (o : Operands) (s : State) : Host.Outcome State Fault Refusal :=
  s.finish (updateEffect .xxh32 o s)

/-- `update.xxh64` (R338). -/
def execUpdateXxh64 (o : Operands) (s : State) : Host.Outcome State Fault Refusal :=
  s.finish (updateEffect .xxh64 o s)

end Sys2Proof.Machine
end

