-- ==== Sys2Proof/Machine/VerifyCommands.lean ====
section
/-! DEFINITION. The VERIFY commands, one meaning per algorithm (40_common.md, and the instruction forms of 41 to 47). -/

namespace Sys2Proof.Machine

/-- `verify.md5` (R177). -/
def execVerifyMd5 (o : Operands) (s : State) : Host.Outcome State Fault Refusal :=
  s.finish (verifyEffect .md5 o s)

/-- `verify.sha1` (R187). -/
def execVerifySha1 (o : Operands) (s : State) : Host.Outcome State Fault Refusal :=
  s.finish (verifyEffect .sha1 o s)

/-- `verify.sha256` (R207). -/
def execVerifySha256 (o : Operands) (s : State) : Host.Outcome State Fault Refusal :=
  s.finish (verifyEffect .sha256 o s)

/-- `verify.sha384` (R215). -/
def execVerifySha384 (o : Operands) (s : State) : Host.Outcome State Fault Refusal :=
  s.finish (verifyEffect .sha384 o s)

/-- `verify.blake2b` (R240). -/
def execVerifyBlake2b (o : Operands) (s : State) : Host.Outcome State Fault Refusal :=
  s.finish (verifyEffect .blake2b o s)

/-- `verify.blake3` (R272). -/
def execVerifyBlake3 (o : Operands) (s : State) : Host.Outcome State Fault Refusal :=
  s.finish (verifyEffect .blake3 o s)

end Sys2Proof.Machine
end

