-- ==== Sys2Proof/Machine/Dispatch.lean ====
section
/-! DEFINITION. The meaning of each command, one arm per constructor of `Instr`. -/

namespace Sys2Proof.Machine

def exec (i : Instr) (s : State) : Host.Outcome State Fault Refusal :=
  match i with
  | .hashMd5 o => Sys2Proof.Machine.execHashMd5 o s
  | .hashSha1 o => Sys2Proof.Machine.execHashSha1 o s
  | .hashSha256 o => Sys2Proof.Machine.execHashSha256 o s
  | .hashSha384 o => Sys2Proof.Machine.execHashSha384 o s
  | .hashBlake2b o => Sys2Proof.Machine.execHashBlake2b o s
  | .hashBlake3 o => Sys2Proof.Machine.execHashBlake3 o s
  | .hashSiphash o => Sys2Proof.Machine.execHashSiphash o s
  | .hashMurmur3_32 o => Sys2Proof.Machine.execHashMurmur3_32 o s
  | .hashMurmur3_128 o => Sys2Proof.Machine.execHashMurmur3_128 o s
  | .hashXxh32 o => Sys2Proof.Machine.execHashXxh32 o s
  | .hashXxh64 o => Sys2Proof.Machine.execHashXxh64 o s
  | .hashCity64 o => Sys2Proof.Machine.execHashCity64 o s
  | .hashCity128 o => Sys2Proof.Machine.execHashCity128 o s
  | .hashFarm64 o => Sys2Proof.Machine.execHashFarm64 o s
  | .verifyMd5 o => Sys2Proof.Machine.execVerifyMd5 o s
  | .verifySha1 o => Sys2Proof.Machine.execVerifySha1 o s
  | .verifySha256 o => Sys2Proof.Machine.execVerifySha256 o s
  | .verifySha384 o => Sys2Proof.Machine.execVerifySha384 o s
  | .verifyBlake2b o => Sys2Proof.Machine.execVerifyBlake2b o s
  | .verifyBlake3 o => Sys2Proof.Machine.execVerifyBlake3 o s
  | .initMd5 o => Sys2Proof.Machine.execInitMd5 o s
  | .initSha1 o => Sys2Proof.Machine.execInitSha1 o s
  | .initSha256 o => Sys2Proof.Machine.execInitSha256 o s
  | .initSha384 o => Sys2Proof.Machine.execInitSha384 o s
  | .initBlake2b o => Sys2Proof.Machine.execInitBlake2b o s
  | .initBlake3 o => Sys2Proof.Machine.execInitBlake3 o s
  | .initSiphash o => Sys2Proof.Machine.execInitSiphash o s
  | .initXxh32 o => Sys2Proof.Machine.execInitXxh32 o s
  | .initXxh64 o => Sys2Proof.Machine.execInitXxh64 o s
  | .updateMd5 o => Sys2Proof.Machine.execUpdateMd5 o s
  | .updateSha1 o => Sys2Proof.Machine.execUpdateSha1 o s
  | .updateSha256 o => Sys2Proof.Machine.execUpdateSha256 o s
  | .updateSha384 o => Sys2Proof.Machine.execUpdateSha384 o s
  | .updateBlake2b o => Sys2Proof.Machine.execUpdateBlake2b o s
  | .updateBlake3 o => Sys2Proof.Machine.execUpdateBlake3 o s
  | .updateSiphash o => Sys2Proof.Machine.execUpdateSiphash o s
  | .updateXxh32 o => Sys2Proof.Machine.execUpdateXxh32 o s
  | .updateXxh64 o => Sys2Proof.Machine.execUpdateXxh64 o s
  | .finalMd5 o => Sys2Proof.Machine.execFinalMd5 o s
  | .finalSha1 o => Sys2Proof.Machine.execFinalSha1 o s
  | .finalSha256 o => Sys2Proof.Machine.execFinalSha256 o s
  | .finalSha384 o => Sys2Proof.Machine.execFinalSha384 o s
  | .finalBlake2b o => Sys2Proof.Machine.execFinalBlake2b o s
  | .finalBlake3 o => Sys2Proof.Machine.execFinalBlake3 o s
  | .finalSiphash o => Sys2Proof.Machine.execFinalSiphash o s
  | .finalXxh32 o => Sys2Proof.Machine.execFinalXxh32 o s
  | .finalXxh64 o => Sys2Proof.Machine.execFinalXxh64 o s
  | .rotl o => Sys2Proof.Machine.execRotl o s
  | .rotr o => Sys2Proof.Machine.execRotr o s
  | .bswap o => Sys2Proof.Machine.execBswap o s
  | .mul128 o => Sys2Proof.Machine.execMul128 o s
  | .jump o => Sys2Proof.Machine.execJump o s
  | .jmatch o => Sys2Proof.Machine.execJmatch o s
  | .jnmatch o => Sys2Proof.Machine.execJnmatch o s
  | .nop o => Sys2Proof.Machine.execNop o s
  | .stop o => Sys2Proof.Machine.execStop o s

end Sys2Proof.Machine
end

