-- ==== Sys2Proof/Decode.lean ====
section
/-! DEFINITION. The decoder and the encoder of the 32-byte descriptor (30_encoding.md R100 to R109). The
decoder splits off OP and ALG and rejects by the fault code the spec names; the other fields are checked by
the command itself (R109, R115). -/

namespace Sys2Proof

open Machine (readLE bytesLE natBytesLE)

/-- The operation codes of R104. -/
def opCode : Op → BitVec 8
  | .nop => 0x00#8
  | .hash => 0x01#8
  | .verify => 0x02#8
  | .init => 0x03#8
  | .update => 0x04#8
  | .final => 0x05#8
  | .rotl => 0x10#8
  | .rotr => 0x11#8
  | .bswap => 0x12#8
  | .mul128 => 0x13#8
  | .jump => 0x20#8
  | .jmatch => 0x21#8
  | .jnmatch => 0x22#8
  | .stop => 0x2F#8

/-- The operations, as a list. -/
def allOps : List Op :=
  [.nop, .hash, .verify, .init, .update, .final, .rotl, .rotr, .bswap, .mul128,
   .jump, .jmatch, .jnmatch, .stop]

/-- The operation with a code; none where R104 does not list it. -/
def opOfCode (c : BitVec 8) : Option Op := allOps.find? fun op => opCode op == c

/-- The algorithm codes of R105. -/
def algCode : Alg → BitVec 5
  | .md5 => 0x01#5
  | .sha1 => 0x02#5
  | .sha256 => 0x03#5
  | .sha384 => 0x04#5
  | .blake2b => 0x05#5
  | .blake3 => 0x06#5
  | .siphash => 0x07#5
  | .murmur3_32 => 0x08#5
  | .murmur3_128 => 0x09#5
  | .xxh32 => 0x0A#5
  | .xxh64 => 0x0B#5
  | .city64 => 0x0C#5
  | .city128 => 0x0D#5
  | .farm64 => 0x0E#5

/-- The algorithms, as a list. -/
def allAlgs : List Alg :=
  [.md5, .sha1, .sha256, .sha384, .blake2b, .blake3, .siphash, .murmur3_32, .murmur3_128,
   .xxh32, .xxh64, .city64, .city128, .farm64]

/-- The algorithm with a code; none for 0x00 and 0x0F to 0x1F (R105). -/
def algOfCode (c : BitVec 5) : Option Alg := allAlgs.find? fun a => algCode a == c

/-- The ALG field of a command: 0 where it takes no algorithm (R105). -/
def algField : Option Alg → BitVec 5
  | none => 0
  | some a => algCode a

/-- Word `Wi` of a descriptor (R100, R103). -/
def descWord (d : Bytes) (i : Nat) : Word := readLE 32 d (4 * i)

/-- The OP field, W0[7:0] (R101, R103). -/
def opField (d : Bytes) : BitVec 8 := (descWord d 0).extractLsb' 0 8

/-- The ALG field, W0[12:8] (R101, R103). -/
def algBits (d : Bytes) : BitVec 5 := (descWord d 0).extractLsb' 8 5

/-- The operand fields (R101 to R103). -/
def operandFields (d : Bytes) : Operands where
  ctx := (descWord d 0).extractLsb' 13 3
  param := (descWord d 0).extractLsb' 16 8
  klen := (descWord d 0).extractLsb' 24 8
  src := descWord d 1
  len := descWord d 2
  dst := descWord d 3
  aux := descWord d 4
  xlen := descWord d 5
  rsv0 := descWord d 6
  rsv1 := descWord d 7

/-- The command of a hash operation and an algorithm, when R106 accepts the algorithm. -/
def Instr.ofHash (op : Op) (a : Alg) (o : Operands) : Option Instr :=
  match op, a with
  | .hash, .md5 => some (.hashMd5 o)
  | .hash, .sha1 => some (.hashSha1 o)
  | .hash, .sha256 => some (.hashSha256 o)
  | .hash, .sha384 => some (.hashSha384 o)
  | .hash, .blake2b => some (.hashBlake2b o)
  | .hash, .blake3 => some (.hashBlake3 o)
  | .hash, .siphash => some (.hashSiphash o)
  | .hash, .murmur3_32 => some (.hashMurmur3_32 o)
  | .hash, .murmur3_128 => some (.hashMurmur3_128 o)
  | .hash, .xxh32 => some (.hashXxh32 o)
  | .hash, .xxh64 => some (.hashXxh64 o)
  | .hash, .city64 => some (.hashCity64 o)
  | .hash, .city128 => some (.hashCity128 o)
  | .hash, .farm64 => some (.hashFarm64 o)
  | .verify, .md5 => some (.verifyMd5 o)
  | .verify, .sha1 => some (.verifySha1 o)
  | .verify, .sha256 => some (.verifySha256 o)
  | .verify, .sha384 => some (.verifySha384 o)
  | .verify, .blake2b => some (.verifyBlake2b o)
  | .verify, .blake3 => some (.verifyBlake3 o)
  | .init, .md5 => some (.initMd5 o)
  | .init, .sha1 => some (.initSha1 o)
  | .init, .sha256 => some (.initSha256 o)
  | .init, .sha384 => some (.initSha384 o)
  | .init, .blake2b => some (.initBlake2b o)
  | .init, .blake3 => some (.initBlake3 o)
  | .init, .siphash => some (.initSiphash o)
  | .init, .xxh32 => some (.initXxh32 o)
  | .init, .xxh64 => some (.initXxh64 o)
  | .update, .md5 => some (.updateMd5 o)
  | .update, .sha1 => some (.updateSha1 o)
  | .update, .sha256 => some (.updateSha256 o)
  | .update, .sha384 => some (.updateSha384 o)
  | .update, .blake2b => some (.updateBlake2b o)
  | .update, .blake3 => some (.updateBlake3 o)
  | .update, .siphash => some (.updateSiphash o)
  | .update, .xxh32 => some (.updateXxh32 o)
  | .update, .xxh64 => some (.updateXxh64 o)
  | .final, .md5 => some (.finalMd5 o)
  | .final, .sha1 => some (.finalSha1 o)
  | .final, .sha256 => some (.finalSha256 o)
  | .final, .sha384 => some (.finalSha384 o)
  | .final, .blake2b => some (.finalBlake2b o)
  | .final, .blake3 => some (.finalBlake3 o)
  | .final, .siphash => some (.finalSiphash o)
  | .final, .xxh32 => some (.finalXxh32 o)
  | .final, .xxh64 => some (.finalXxh64 o)
  | _, _ => none

/-- The command of an operation that takes no algorithm (R105: ALG 0x00). -/
def Instr.ofPlain (op : Op) (o : Operands) : Option Instr :=
  match op with
  | .rotl => some (.rotl o)
  | .rotr => some (.rotr o)
  | .bswap => some (.bswap o)
  | .mul128 => some (.mul128 o)
  | .jump => some (.jump o)
  | .jmatch => some (.jmatch o)
  | .jnmatch => some (.jnmatch o)
  | .nop => some (.nop o)
  | .stop => some (.stop o)
  | _ => none

/-- The command of an operation, an algorithm and operand fields. -/
def Instr.build : Op → Option Alg → Operands → Option Instr
  | op, some a, o => Instr.ofHash op a o
  | op, none, o => Instr.ofPlain op o

/-- A command, or the code that its absence raises. -/
def orElseFault (e : ErrCode) : Option Instr → Except ErrCode Instr
  | some i => .ok i
  | none => .error e

/-- Decode a descriptor. An OP that R104 does not list is E_ILLEGAL_OP; an ALG that R106 does not accept for
a hash operation is E_ILLEGAL_ALG (R108); a non-zero ALG on a non-hash operation is E_RESERVED (R109). -/
def decode (d : Bytes) : Except ErrCode Instr :=
  match opOfCode (opField d) with
  | none => .error .illegalOp
  | some op =>
    if op.isHashOp then
      match algOfCode (algBits d) with
      | none => .error .illegalAlg
      | some a => orElseFault .illegalAlg (Instr.ofHash op a (operandFields d))
    else if algBits d ≠ 0 then .error .reserved
    else orElseFault .illegalOp (Instr.ofPlain op (operandFields d))

/-- The control word W0 (R101): KLEN, PARAM, CTX, ALG, OP from the most significant bit down. -/
def controlWord (i : Instr) : Word :=
  let o := i.operands
  o.klen ++ o.param ++ o.ctx ++ algField i.alg ++ opCode i.op

/-- The eight words of a command's descriptor (R101, R102). -/
def encodeWords (i : Instr) : List Word :=
  let o := i.operands
  [controlWord i, o.src, o.len, o.dst, o.aux, o.xlen, o.rsv0, o.rsv1]

/-- The 32 bytes of a command's descriptor, each word little-endian (R100). -/
def encode (i : Instr) : Bytes := (encodeWords i).flatMap bytesLE

/-- The 32 bytes of the descriptor whose bits, numbered as opcode_table.json numbers them, are `w`: `nbits`
bits of it, and 0 above. -/
def tableBytes (nbits w : Nat) : Bytes := natBytesLE 32 (w % 2 ^ nbits)

/-- The command the decoder reads from an instruction whose bits are `w`. -/
def decodeTableWord (nbits w : Nat) : Option Instr := (decode (tableBytes nbits w)).toOption

end Sys2Proof
end

