-- ==== Sys2Proof/Machine/Fetch.lean ====
section
/-! DEFINITION. Fetching the descriptor at CMDPTR (10_state.md R35, 20_memory.md R90), the bytes that hold "any
value" (70_reset_and_hazards.md R492), and the host's store into DMEM while the core is idle. -/

namespace Sys2Proof.Machine

/-- Every address of the list gets the byte of draw `n` (free values). -/
def Memory.drawAll (m : Memory) (n : Nat) (addrs : List Nat) : Memory :=
  addrs.foldl (fun m a => Memory.write m a (Config.anyByte n a)) m

/-- Before DMEM is read: the bytes the host spoiled hold any value for every read (R492, U5), so each of them
gets a new free value. With no such byte nothing happens. Log 5. -/
def State.settle (s : State) : State :=
  match s.spoiled with
  | [] => s
  | as => { s with dmem := Memory.drawAll s.dmem s.draws as, draws := s.draws + 1 }

/-- The descriptor at CMDPTR (R35): misaligned, then out of range, then its 32 bytes. -/
def State.fetch (s : State) : Except ErrCode Bytes :=
  if s.cmdPtr.toNat % Config.descBytes ≠ 0 then .error .fetchAlign
  else if s.cmdPtr.toNat + Config.descBytes > s.memSize then .error .fetchRange
  else .ok (s.memRead s.cmdPtr.toNat Config.descBytes)

/-- The command at CMDPTR, or the fault of fetching or decoding it. -/
def State.command (s : State) : Except ErrCode Instr :=
  match s.fetch with
  | .error e => .error e
  | .ok d => decode d

/-- The addresses `a` to `a + n - 1`. -/
def addrRange (a n : Nat) : List Nat := (List.range n).map fun k => a + k

/-- A host write of DMEM while the core is idle (R70, R86): the bytes are stored, and those that held any
value hold the written ones from now on (R492). -/
def State.hostStore (s : State) (a : Nat) (bs : Bytes) : State :=
  { s with
    dmem := Memory.writeBytes s.dmem a bs
    spoiled := s.spoiled.filter fun x => !(a ≤ x && x < a + bs.length) }

end Sys2Proof.Machine
end

