-- ==== Sys2Proof/Machine/Step.lean ====
section
/-! DEFINITION. One step of the core: one command (10_state.md R30), or nothing while it is idle. -/

namespace Sys2Proof.Machine

/-- One step. While BUSY = 0 the core executes nothing and keeps all its state (R456). Otherwise a pending
abort is taken first (R435); then the descriptor at CMDPTR is fetched and decoded, and the command runs, or
the fault of its fetch or its decoding is taken (R434). -/
def step (s : State) : Host.Outcome State Fault Refusal :=
  if !s.busy then .next s
  else if s.abortPend then .next (s.raiseFault .abort)
  else
    match s.settle.command with
    | .error e => .next (s.settle.raiseFault e)
    | .ok i => exec i s.settle

/-- `s` with the instruction whose bits are `w` stored as the descriptor at CMDPTR and the run started, as the
host's boot sequence does it (70_reset_and_hazards.md R484): the very next step runs that instruction. Log 9. -/
def State.withFetchWord (s : State) (nbits w : Nat) : State :=
  { (s.hostStore s.cmdPtr.toNat (tableBytes nbits w)).start with abortPend := false }

end Sys2Proof.Machine
end

