-- ==== Sys2Proof/Machine/HostPort.lean ====
section
/-! DEFINITION. The other agents: the host at the register block (10_state.md R38 to R52) and at DMEM
(20_memory.md R86, R87, 70_reset_and_hazards.md R492), the platform's reset (R480 to R482), and the system of
all of them as events between commands (R30, R79). -/

namespace Sys2Proof.Machine

/-! ### The register block -/

/-- An access the block answers: one aligned 32-bit word below offset 0x20 (R38, R39). -/
def regAccessOk (off size : Nat) : Bool := size == 4 && off % 4 == 0 && off < 0x20

/-- The address of the next command: CMDPTR once the command in progress has ended. A latched abort waits for
the boundary after that command (R435), so it does not count here. Log 7. -/
def State.ptrAfter (s : State) : Word :=
  match step { s with abortPend := false } with
  | .next t => t.cmdPtr
  | _ => s.cmdPtr

/-- What a read of CMDPTR answers (R49): the pointer; while BUSY = 1, either the address of the command in
progress or that of the next (R492, U7), a free choice. Log 7. -/
def State.cmdPtrRead (s : State) : Word :=
  if s.busy && !Config.anyEarly s.polls then s.ptrAfter else s.cmdPtr

/-- The value at an offset of the block (R38). -/
def State.regValue (s : State) (off : Nat) : Word :=
  if off = 0x00 then Config.idValue
  else if off = 0x04 then Config.capsValue
  else if off = 0x08 then s.ctrl
  else if off = 0x0C then s.status
  else if off = 0x10 then s.cmdPtrRead
  else if off = 0x14 then s.errPtr
  else 0

/-- A host read of `size` bytes at an offset. It has no side effect (R80); the counter of free choices moves
on with a poll of CMDPTR while BUSY = 1. -/
def hostReadReg (off size : Nat) (s : State) : Host.Outcome (Word × State) Fault Refusal :=
  if !regAccessOk off size then .refused .hostAccess
  else .next (s.regValue off,
    if off = 0x10 && s.busy then { s with polls := s.polls + 1 } else s)

/-- A write to CTRL (R47): IRQ_EN is stored whatever the state; START acts while idle (R51) and ABORT while
busy (R52), each by the value of BUSY before the write. -/
def State.writeCtrl (s : State) (v : Word) : State :=
  let t := { s with irqEn := v.getLsbD 2 }
  if s.busy then (if v.getLsbD 1 then { t with abortPend := true } else t)
  else if v.getLsbD 0 then t.start
  else t

/-- A write to STATUS (R48): 1 to ERR clears ERR and ERRCODE, 1 to DONE clears DONE. -/
def State.writeStatus (s : State) (v : Word) : State :=
  let t := if v.getLsbD 2 then { s with err := false, errCode := 0 } else s
  if v.getLsbD 1 then { t with done := false } else t

/-- A write to CMDPTR (R49): ignored while BUSY = 1. -/
def State.writeCmdPtr (s : State) (v : Word) : State := if s.busy then s else { s with cmdPtr := v }

/-- A host write of `size` bytes at an offset; read-only and reserved registers ignore it (R39, R45, R46,
R50). -/
def hostWriteReg (off size : Nat) (v : Word) (s : State) : Host.Outcome State Fault Refusal :=
  if !regAccessOk off size then .refused .hostAccess
  else if off = 0x08 then .next (s.writeCtrl v)
  else if off = 0x0C then .next (s.writeStatus v)
  else if off = 0x10 then .next (s.writeCmdPtr v)
  else .next s

/-- The offset in the block of a host bus address (R38: the base is HOST_BASE). -/
def busOffset (addr : Nat) : Option Nat :=
  if Config.hostBase ≤ addr then some (addr - Config.hostBase) else none

/-- A host read at a bus address. -/
def busRead (addr size : Nat) (s : State) : Host.Outcome (Word × State) Fault Refusal :=
  match busOffset addr with
  | some off => hostReadReg off size s
  | none => .refused .hostAccess

/-- A host write at a bus address. -/
def busWrite (addr size : Nat) (v : Word) (s : State) : Host.Outcome State Fault Refusal :=
  match busOffset addr with
  | some off => hostWriteReg off size v s
  | none => .refused .hostAccess

/-! ### DMEM seen by the host -/

/-- An address put into a rising list, once. -/
def insertAddr (a : Nat) : List Nat → List Nat
  | [] => [a]
  | x :: xs => if a < x then a :: x :: xs else if a = x then x :: xs else x :: insertAddr a xs

/-- A host read of `n` bytes of DMEM: while BUSY = 1 every byte is any value (R87, U6). -/
def hostReadMem (a n : Nat) (s : State) : Host.Outcome (Bytes × State) Fault Refusal :=
  if !s.inRange a n then .fault .noSuchAddress
  else if s.busy then
    .next ((addrRange a n).map (Config.anyByte s.draws), { s with draws := s.draws + 1 })
  else .next (s.settle.memRead a n, s.settle)

/-- A host write of bytes of DMEM: while BUSY = 1 the bytes written hold any value until the next host write
of them at BUSY = 0 (R87, R492, U5). -/
def hostWriteMem (a : Nat) (bs : Bytes) (s : State) : Host.Outcome State Fault Refusal :=
  if !s.inRange a bs.length then .fault .noSuchAddress
  else if s.busy then
    .next { s with spoiled := (addrRange a bs.length).foldl (fun l x => insertAddr x l) s.spoiled }
  else .next (s.hostStore a bs)

/-! ### Reset -/

/-- The DST range a command writes when it does not fault: HASH, FINAL and the primitives (R83). -/
def storeRange (i : Instr) (s : State) : List Nat :=
  let o := i.operands
  let upTo := addrRange o.dst.toNat
  match i.op, i.alg with
  | .hash, some a => upTo (outLen a (decodeParams a o))
  | .final, _ => upTo (outLen (s.slot o.ctx).alg (s.slot o.ctx).prm)
  | .rotl, _ | .rotr, _ | .bswap, _ => upTo (opBytes o)
  | .mul128, _ => upTo 32
  | _, _ => []

/-- The DMEM bytes that the command in progress would write (R482): none while idle or when the command
faults. A latched abort waits for the next boundary (R435), so the command at CMDPTR counts as in progress
whether or not one is pending. Log 8. -/
def State.inProgress (s : State) : List Nat :=
  if !s.busy then []
  else
    match s.settle.command with
    | .error _ => []
    | .ok i =>
      match exec i s.settle with
      | .next t => if t.busy then storeRange i s.settle else []
      | _ => []

/-- A reset with power held (R480, R482): every register and slot takes its reset value, the bytes that the
command in progress would write hold any value, every other DMEM byte keeps its value. Log 8. -/
def State.platformReset (s : State) : State :=
  { State.poweredOn s.memSize (Memory.drawAll s.dmem (s.draws + 1) s.inProgress) with
    spoiled := s.spoiled
    draws := s.draws + 2
    polls := s.polls }

/-- Power-on with a DMEM of `size` bytes that holds `init` (R480, U8, U11). -/
def powerOn (size : Nat) (init : Memory) : Host.Outcome State Fault Refusal :=
  if Config.legalMemSize size then .next (State.poweredOn size init) else .refused .memSize

/-! ### The system -/

/-- What can happen next: a command of the core, an access of the host, a reset. Which does is the
environment's free choice (R496). -/
inductive Event where
  | core
  | readReg (off size : Nat)
  | writeReg (off size : Nat) (v : Word)
  | readMem (a n : Nat)
  | writeMem (a : Nat) (bs : Bytes)
  | reset
  deriving DecidableEq, Repr

/-- The state of an outcome that also answers a value. -/
def outcomeState {α : Type} : Host.Outcome (α × State) Fault Refusal →
    Host.Outcome State Fault Refusal
  | .next r => .next r.2
  | .fault f => .fault f
  | .refused r => .refused r

/-- One event of the system of core, host and platform. -/
def sysStep (e : Event) (s : State) : Host.Outcome State Fault Refusal :=
  match e with
  | .core => step s
  | .readReg off size => outcomeState (hostReadReg off size s)
  | .writeReg off size v => hostWriteReg off size v s
  | .readMem a n => outcomeState (hostReadMem a n s)
  | .writeMem a bs => hostWriteMem a bs s
  | .reset => .next s.platformReset

/-- A schedule of events, stopping at the first fault or refusal. -/
def sysRun : List Event → State → Host.Outcome State Fault Refusal
  | [], s => .next s
  | e :: es, s =>
    match sysStep e s with
    | .next t => sysRun es t
    | .fault f => .fault f
    | .refused r => .refused r

end Sys2Proof.Machine
end

