-- ==== Sys2Proof/Safety.lean ====
section
/-! DEFINITION. What every state of a run satisfies, and what the end of a run is, in the terms statements
use. -/

namespace Sys2Proof.Machine

/-- The parameters and AUX bytes a slot of an algorithm may hold (30_encoding.md R110, R112, 40_common.md
R145). -/
def slotParamsOk (a : Alg) (p : Params) (aux : Bytes) : Bool :=
  match a with
  | .md5 | .sha1 | .sha256 | .sha384 => p == {} && aux == []
  | .blake2b =>
    p == { outlen := p.outlen, klen := p.klen } && 1 ≤ p.outlen && p.outlen ≤ 64 && p.klen ≤ 64 &&
      aux.length == p.klen
  | .blake3 => p == { outlen := p.outlen } && 1 ≤ p.outlen && p.outlen < 2 ^ 32 && aux == []
  | .siphash =>
    (p == { c := 2, d := 4 } || p == { c := 1, d := 3 } || p == { c := 4, d := 8 }) &&
      aux.length == 16
  | .xxh32 => p == { mode := p.mode } && p.mode ≤ 1 && aux.length == 4 * p.mode
  | .xxh64 => p == { mode := p.mode } && p.mode ≤ 1 && aux.length == 8 * p.mode
  | .murmur3_32 | .murmur3_128 | .city64 | .city128 | .farm64 => false

/-- A slot is IDLE, or holds a computation of a streaming algorithm (R106) with legal parameters and at most
MAX_TOTAL bytes (R41, R148). -/
def slotOk (c : Slot) : Bool :=
  c.state == .idle || (slotParamsOk c.alg c.prm c.aux && c.msg.length ≤ Config.maxTotal)

/-- DMEM is in canonical form and lists no address at or above MEM_SIZE (R71). -/
def State.memOk (s : State) : Bool :=
  Config.legalMemSize s.memSize && Memory.wf s.dmem && s.dmem.all (fun c => c.1 < s.memSize)

/-- STATUS is consistent: at most one of BUSY, DONE and ERR (R48); ERRCODE is one of 1 to 12 when ERR = 1 and
0 otherwise (R48, R431); an abort is pending only during a run (R44). -/
def State.statusOk (s : State) : Bool :=
  !(s.busy && s.done) && !(s.busy && s.err) && !(s.done && s.err) &&
    (if s.err then 1 ≤ s.errCode.toNat && s.errCode.toNat ≤ 12 else s.errCode == 0) &&
    (!s.abortPend || s.busy)

/-- Every context slot is as `slotOk` says. -/
def State.slotsOk (s : State) : Bool := s.slots.toList.all slotOk

/-- The spoiled addresses lie in DMEM. -/
def State.spoiledOk (s : State) : Bool := s.spoiled.all fun a => a < s.memSize

/-- The invariant of the machine. -/
def State.inv (s : State) : Bool := s.memOk && s.statusOk && s.slotsOk && s.spoiledOk

/-- The host keeps duty H-1 (60_exceptions.md R470): no DMEM byte was written during a run. -/
def State.clean (s : State) : Bool := s.spoiled == []

/-- The run ended at a STOP (R415). -/
def State.stopped (s : State) : Bool := !s.busy && s.done && !s.err

/-- The run ended at a fault or an abort (R415). -/
def State.faulted (s : State) : Bool := !s.busy && !s.done && s.err

end Sys2Proof.Machine
end

