-- ==== Sys2Proof/Certificates/Slice0/Obligations.lean ====
section
/-! DEFINITION. The statements for the provers. `Claims` holds their vocabulary: each check and table of the
spec written a second time, from the rules and on raw field values, so that a statement does not lean on the
model's own tables. Each statement's docstring names the rules it formalises. -/

namespace Sys2Proof.Claims

open Machine

/-! ### Vocabulary: ranges, faults, results -/

/-- `InRange(a, n)` of R82, on naturals. -/
def InRange (s : State) (a n : Nat) : Prop := n = 0 ∨ a + n ≤ s.memSize

/-- The state R432 leaves: the code, ERRPTR, ERR, BUSY and the abort latch are written, nothing else. -/
def faultState (s : State) (code : BitVec 8) : State :=
  { s with errCode := code, errPtr := s.cmdPtr, err := true, busy := false, abortPend := false }

/-- The command raises the fault with this code. -/
def Faults (i : Instr) (s : State) (code : BitVec 8) : Prop := exec i s = .next (faultState s code)

/-- The checks of a command in the order of its pseudocode: the first one that fails raises its code; when none
fails, `done` holds. -/
def Checked (i : Instr) (s : State) : List (BitVec 8 × Prop) → Prop → Prop
  | [], done => done
  | (code, bad) :: rest, done => (bad → Faults i s code) ∧ (¬bad → Checked i s rest done)

/-- The bytes from `a` on are `out` in `t`, and every byte outside reads as it does in `s`. -/
def Wrote (s t : State) (a : Nat) (out : Bytes) : Prop :=
  t.memRead a out.length = out ∧
    ∀ x, x < a ∨ a + out.length ≤ x → Memory.read t.dmem x = Memory.read s.dmem x

/-- The command completes: it writes `out` at `a`, CMDPTR moves to the next descriptor, and nothing else
changes. -/
def Stores (i : Instr) (s : State) (a : Nat) (out : Bytes) : Prop :=
  ∃ t, exec i s = .next t ∧ Wrote s t a out ∧
    t = { s with dmem := t.dmem, cmdPtr := s.cmdPtr + 32#32 }

/-- The registers, the slots and IRQ hold their values of the table of R480, and the core is idle. -/
def resetRegisters (s : State) : Prop :=
  s.irqEn = false ∧ s.ctrl = 0 ∧ s.status = 0 ∧ s.busy = false ∧ s.done = false ∧ s.err = false ∧
    s.matched = false ∧ s.errCode = 0 ∧ s.cmdPtr = 0 ∧ s.errPtr = 0 ∧ s.abortPend = false ∧
    s.irq = false ∧ (∀ c : BitVec 3, (s.slot c).state = .idle) ∧
    s.regValue 0x00 = 0x48534831#32 ∧ s.regValue 0x04 = 0x00007FFE#32 ∧ step s = .next s

/-- Run commands one after the other. -/
def execAll : List Instr → State → Host.Outcome State Fault Refusal
  | [], s => .next s
  | i :: is, s =>
    match exec i s with
    | .next t => execAll is t
    | .fault f => .fault f
    | .refused r => .refused r

/-! ### Vocabulary: the tables of 30_encoding.md on raw codes -/

/-- A field that R110 marks 0 for the algorithm is not 0: PARAM, KLEN, AUX and XLEN of HASH, VERIFY, INIT. -/
def algReserved (alg : BitVec 5) (o : Operands) : Prop :=
  if alg.toNat ≤ 4 then o.param ≠ 0 ∨ o.klen ≠ 0 ∨ o.aux ≠ 0 ∨ o.xlen ≠ 0
  else if alg = 0x05#5 then (o.klen = 0 ∧ o.aux ≠ 0) ∨ o.xlen ≠ 0
  else if alg = 0x06#5 then o.param ≠ 0 ∨ o.klen ≠ 0 ∨ o.aux ≠ 0
  else if alg = 0x07#5 then o.klen ≠ 0 ∨ o.xlen ≠ 0
  else o.klen ≠ 0 ∨ (o.param = 0 ∧ o.aux ≠ 0) ∨ o.xlen ≠ 0

/-- A field that R107 marks 0 for the operation is not 0 (R109). -/
def reservedFails (op : BitVec 8) (alg : BitVec 5) (o : Operands) : Prop :=
  o.rsv0 ≠ 0 ∨ o.rsv1 ≠ 0 ∨
  if op = 0x01#8 ∨ op = 0x02#8 then o.ctx ≠ 0 ∨ algReserved alg o
  else if op = 0x03#8 then o.src ≠ 0 ∨ o.len ≠ 0 ∨ o.dst ≠ 0 ∨ algReserved alg o
  else if op = 0x04#8 then o.param ≠ 0 ∨ o.klen ≠ 0 ∨ o.dst ≠ 0 ∨ o.aux ≠ 0 ∨ o.xlen ≠ 0
  else if op = 0x05#8 then
    o.param ≠ 0 ∨ o.klen ≠ 0 ∨ o.src ≠ 0 ∨ o.len ≠ 0 ∨ o.aux ≠ 0 ∨ o.xlen ≠ 0
  else
    alg ≠ 0 ∨ o.ctx ≠ 0 ∨ o.klen ≠ 0 ∨ o.len ≠ 0 ∨ o.xlen ≠ 0 ∨
    if op = 0x10#8 ∨ op = 0x11#8 then o.aux ≠ 0
    else if op = 0x12#8 then o.aux ≠ 0 ∨ o.param.toNat % 64 ≠ 0
    else if op = 0x13#8 then o.param ≠ 0
    else if op = 0x20#8 ∨ op = 0x21#8 ∨ op = 0x22#8 then o.param ≠ 0 ∨ o.dst ≠ 0 ∨ o.aux ≠ 0
    else o.param ≠ 0 ∨ o.src ≠ 0 ∨ o.dst ≠ 0 ∨ o.aux ≠ 0

/-- PARAM or KLEN holds a value that R110 calls illegal for the algorithm. -/
def algParamFails (alg : BitVec 5) (o : Operands) : Prop :=
  if alg = 0x05#5 then 64 < o.param.toNat ∨ 64 < o.klen.toNat
  else if alg = 0x07#5 ∨ alg = 0x0C#5 ∨ alg = 0x0E#5 then 2 < o.param.toNat
  else if 0x08#5 ≤ alg then 1 < o.param.toNat
  else False

/-- The operand width W in bits of R114: 8, 16, 32 or 64 by PARAM[7:6]. -/
def width (o : Operands) : Nat :=
  if o.param.toNat < 64 then 8 else if o.param.toNat < 128 then 16
  else if o.param.toNat < 192 then 32 else 64

/-- The rotation amount AMT of R114: PARAM[5:0]. -/
def amount (o : Operands) : Nat := o.param.toNat % 64

/-- A parameter value is illegal (R110, R114). -/
def paramFails (op : BitVec 8) (alg : BitVec 5) (o : Operands) : Prop :=
  if op = 0x01#8 ∨ op = 0x02#8 ∨ op = 0x03#8 then algParamFails alg o
  else if op = 0x10#8 ∨ op = 0x11#8 then width o ≤ amount o
  else if op = 0x12#8 then width o = 8
  else False

/-- The number of bytes HASH writes and VERIFY compares (R145, R146). -/
def outBytes (alg : BitVec 5) (o : Operands) : Nat :=
  match alg.toNat with
  | 1 => 16
  | 2 => 20
  | 3 => 32
  | 4 => 48
  | 5 => if o.param = 0 then 32 else o.param.toNat
  | 6 => if o.xlen = 0 then 32 else o.xlen.toNat
  | 7 => 8
  | 8 => 4
  | 9 => 16
  | 10 => 4
  | 11 => 8
  | 12 => 8
  | 13 => 16
  | 14 => 8
  | _ => 0

/-- The number of AUX bytes a hash operation reads (R112). -/
def auxBytes (alg : BitVec 5) (o : Operands) : Nat :=
  match alg.toNat with
  | 5 => o.klen.toNat
  | 7 => 16
  | 8 | 9 | 10 => if o.param = 1 then 4 else 0
  | 11 => if o.param = 1 then 8 else 0
  | 12 | 14 => if o.param = 1 then 8 else if o.param = 2 then 16 else 0
  | 13 => if o.param = 1 then 16 else 0
  | _ => 0

/-- The operand ranges of HASH and VERIFY lie in DMEM (R140, R141). -/
def hashInRange (alg : BitVec 5) (o : Operands) (s : State) : Prop :=
  InRange s o.src.toNat o.len.toNat ∧ InRange s o.aux.toNat (auxBytes alg o) ∧
    InRange s o.dst.toNat (outBytes alg o)

/-- The operand range of FINAL: the digest of the slot's algorithm (R144). -/
def finalInRange (o : Operands) (s : State) : Prop :=
  InRange s o.dst.toNat (outLen (s.slot o.ctx).alg (s.slot o.ctx).prm)

/-- An operand range of a command is not in DMEM (R82, R431). -/
def rangeFails (op : BitVec 8) (alg : BitVec 5) (o : Operands) (s : State) : Prop :=
  if op = 0x01#8 ∨ op = 0x02#8 then ¬hashInRange alg o s
  else if op = 0x03#8 then ¬InRange s o.aux.toNat (auxBytes alg o)
  else if op = 0x04#8 then ¬InRange s o.src.toNat o.len.toNat
  else if op = 0x05#8 then ¬finalInRange o s
  else if op = 0x10#8 ∨ op = 0x11#8 ∨ op = 0x12#8 then
    ¬(InRange s o.src.toNat (width o / 8) ∧ InRange s o.dst.toNat (width o / 8))
  else if op = 0x13#8 then
    ¬(InRange s o.src.toNat 16 ∧ InRange s o.aux.toNat 16 ∧ InRange s o.dst.toNat 32)
  else False

/-- The OP codes of R104. -/
def opCodes : List (BitVec 8) :=
  [0x00#8, 0x01#8, 0x02#8, 0x03#8, 0x04#8, 0x05#8, 0x10#8, 0x11#8, 0x12#8, 0x13#8,
   0x20#8, 0x21#8, 0x22#8, 0x2F#8]

/-- The ALG codes that a hash operation accepts (R106). -/
def algCodes (op : BitVec 8) : List (BitVec 5) :=
  if op = 0x01#8 then
    [0x01#5, 0x02#5, 0x03#5, 0x04#5, 0x05#5, 0x06#5, 0x07#5, 0x08#5, 0x09#5, 0x0A#5, 0x0B#5,
     0x0C#5, 0x0D#5, 0x0E#5]
  else if op = 0x02#8 then [0x01#5, 0x02#5, 0x03#5, 0x04#5, 0x05#5, 0x06#5]
  else [0x01#5, 0x02#5, 0x03#5, 0x04#5, 0x05#5, 0x06#5, 0x07#5, 0x0A#5, 0x0B#5]

/-- OPs 0x01 to 0x05 (R104). -/
def isHashOp (op : BitVec 8) : Prop := 0x01#8 ≤ op ∧ op ≤ 0x05#8

/-- Decoding refuses every ALG outside the operation's set with E_ILLEGAL_ALG (R106). -/
def RejectsOtherAlgs (op : BitVec 8) : Prop :=
  ∀ d : Bytes, opField d = op → algBits d ∉ algCodes op → decode d = .error .illegalAlg

/-- Decoding refuses every ALG but 0 on the operation with E_RESERVED (R109). -/
def RejectsAnyAlg (op : BitVec 8) : Prop :=
  ∀ d : Bytes, opField d = op → algBits d ≠ 0 → decode d = .error .reserved

/-! ### Vocabulary: the commands by operation -/

/-- The fourteen HASH commands. -/
def hashCommands : List (Alg × (Operands → Instr)) :=
  [(.md5, .hashMd5), (.sha1, .hashSha1), (.sha256, .hashSha256), (.sha384, .hashSha384),
   (.blake2b, .hashBlake2b), (.blake3, .hashBlake3), (.siphash, .hashSiphash),
   (.murmur3_32, .hashMurmur3_32), (.murmur3_128, .hashMurmur3_128), (.xxh32, .hashXxh32),
   (.xxh64, .hashXxh64), (.city64, .hashCity64), (.city128, .hashCity128), (.farm64, .hashFarm64)]

/-- The six VERIFY commands. -/
def verifyCommands : List (Alg × (Operands → Instr)) :=
  [(.md5, .verifyMd5), (.sha1, .verifySha1), (.sha256, .verifySha256), (.sha384, .verifySha384),
   (.blake2b, .verifyBlake2b), (.blake3, .verifyBlake3)]

/-- The nine INIT commands. -/
def initCommands : List (Alg × (Operands → Instr)) :=
  [(.md5, .initMd5), (.sha1, .initSha1), (.sha256, .initSha256), (.sha384, .initSha384),
   (.blake2b, .initBlake2b), (.blake3, .initBlake3), (.siphash, .initSiphash), (.xxh32, .initXxh32),
   (.xxh64, .initXxh64)]

/-- The nine UPDATE commands. -/
def updateCommands : List (Alg × (Operands → Instr)) :=
  [(.md5, .updateMd5), (.sha1, .updateSha1), (.sha256, .updateSha256), (.sha384, .updateSha384),
   (.blake2b, .updateBlake2b), (.blake3, .updateBlake3), (.siphash, .updateSiphash),
   (.xxh32, .updateXxh32), (.xxh64, .updateXxh64)]

/-- The nine FINAL commands. -/
def finalCommands : List (Alg × (Operands → Instr)) :=
  [(.md5, .finalMd5), (.sha1, .finalSha1), (.sha256, .finalSha256), (.sha384, .finalSha384),
   (.blake2b, .finalBlake2b), (.blake3, .finalBlake3), (.siphash, .finalSiphash),
   (.xxh32, .finalXxh32), (.xxh64, .finalXxh64)]

/-- The VERIFY and the HASH command of each digest algorithm. -/
def verifyAndHash : List (Alg × (Operands → Instr) × (Operands → Instr)) :=
  [(.md5, .verifyMd5, .hashMd5), (.sha1, .verifySha1, .hashSha1),
   (.sha256, .verifySha256, .hashSha256), (.sha384, .verifySha384, .hashSha384),
   (.blake2b, .verifyBlake2b, .hashBlake2b), (.blake3, .verifyBlake3, .hashBlake3)]

/-- The commands of a streaming algorithm. -/
structure Streaming where
  alg : Alg
  hash : Operands → Instr
  init : Operands → Instr
  update : Operands → Instr
  final : Operands → Instr

/-- The nine streaming algorithms (R106). -/
def streaming : List Streaming :=
  [⟨.md5, .hashMd5, .initMd5, .updateMd5, .finalMd5⟩,
   ⟨.sha1, .hashSha1, .initSha1, .updateSha1, .finalSha1⟩,
   ⟨.sha256, .hashSha256, .initSha256, .updateSha256, .finalSha256⟩,
   ⟨.sha384, .hashSha384, .initSha384, .updateSha384, .finalSha384⟩,
   ⟨.blake2b, .hashBlake2b, .initBlake2b, .updateBlake2b, .finalBlake2b⟩,
   ⟨.blake3, .hashBlake3, .initBlake3, .updateBlake3, .finalBlake3⟩,
   ⟨.siphash, .hashSiphash, .initSiphash, .updateSiphash, .finalSiphash⟩,
   ⟨.xxh32, .hashXxh32, .initXxh32, .updateXxh32, .finalXxh32⟩,
   ⟨.xxh64, .hashXxh64, .initXxh64, .updateXxh64, .finalXxh64⟩]

/-- Each row of opcode_table.json: the command and its control word with every operand field 0. -/
def rows : List ((Operands → Instr) × Word) :=
  [(.hashMd5, 0x00000101#32), (.hashSha1, 0x00000201#32), (.hashSha256, 0x00000301#32),
   (.hashSha384, 0x00000401#32), (.hashBlake2b, 0x00000501#32), (.hashBlake3, 0x00000601#32),
   (.hashSiphash, 0x00000701#32), (.hashMurmur3_32, 0x00000801#32), (.hashMurmur3_128, 0x00000901#32),
   (.hashXxh32, 0x00000A01#32), (.hashXxh64, 0x00000B01#32), (.hashCity64, 0x00000C01#32),
   (.hashCity128, 0x00000D01#32), (.hashFarm64, 0x00000E01#32), (.verifyMd5, 0x00000102#32),
   (.verifySha1, 0x00000202#32), (.verifySha256, 0x00000302#32), (.verifySha384, 0x00000402#32),
   (.verifyBlake2b, 0x00000502#32), (.verifyBlake3, 0x00000602#32), (.initMd5, 0x00000103#32),
   (.initSha1, 0x00000203#32), (.initSha256, 0x00000303#32), (.initSha384, 0x00000403#32),
   (.initBlake2b, 0x00000503#32), (.initBlake3, 0x00000603#32), (.initSiphash, 0x00000703#32),
   (.initXxh32, 0x00000A03#32), (.initXxh64, 0x00000B03#32), (.updateMd5, 0x00000104#32),
   (.updateSha1, 0x00000204#32), (.updateSha256, 0x00000304#32), (.updateSha384, 0x00000404#32),
   (.updateBlake2b, 0x00000504#32), (.updateBlake3, 0x00000604#32), (.updateSiphash, 0x00000704#32),
   (.updateXxh32, 0x00000A04#32), (.updateXxh64, 0x00000B04#32), (.finalMd5, 0x00000105#32),
   (.finalSha1, 0x00000205#32), (.finalSha256, 0x00000305#32), (.finalSha384, 0x00000405#32),
   (.finalBlake2b, 0x00000505#32), (.finalBlake3, 0x00000605#32), (.finalSiphash, 0x00000705#32),
   (.finalXxh32, 0x00000A05#32), (.finalXxh64, 0x00000B05#32), (.rotl, 0x00000010#32),
   (.rotr, 0x00000011#32), (.bswap, 0x00000012#32), (.mul128, 0x00000013#32), (.jump, 0x00000020#32),
   (.jmatch, 0x00000021#32), (.jnmatch, 0x00000022#32), (.nop, 0x00000000#32), (.stop, 0x0000002F#32)]

/-- The descriptor of a row with the operand fields of `o`, written out from R100 to R102. -/
def rowBytes (w0 : Word) (o : Operands) : Bytes :=
  [w0 ||| (o.ctx.setWidth 32 <<< 13) ||| (o.param.setWidth 32 <<< 16) ||| (o.klen.setWidth 32 <<< 24),
   o.src, o.len, o.dst, o.aux, o.xlen, o.rsv0, o.rsv1].flatMap
    fun w => [w.extractLsb' 0 8, w.extractLsb' 8 8, w.extractLsb' 16 8, w.extractLsb' 24 8]

/-- The number of bytes a command that writes DMEM stores at DST: HASH, FINAL, MUL128, or a rotation or
byte swap of its width (R140, R144, R390 to R393). -/
def storedBytes (i : Instr) (s : State) : Nat :=
  match i.op, i.alg with
  | .hash, some a => outBytes (algCode a) i.operands
  | .final, _ => outLen (s.slot i.operands.ctx).alg (s.slot i.operands.ctx).prm
  | .mul128, _ => 32
  | _, _ => width i.operands / 8

/-! ### Vocabulary: the checks of R434 on the descriptor at CMDPTR -/

/-- The check that a fault code names fails for the descriptor at CMDPTR. -/
def checkFails (s : State) (e : ErrCode) : Prop :=
  let d := s.memRead s.cmdPtr.toNat 32
  let op := opField d
  let alg := algBits d
  let o := operandFields d
  match e with
  | .abort => s.abortPend = true
  | .fetchAlign => s.cmdPtr.toNat % 32 ≠ 0
  | .fetchRange => s.memSize < s.cmdPtr.toNat + 32
  | .illegalOp => op ∉ opCodes
  | .illegalAlg => isHashOp op ∧ alg ∉ algCodes op
  | .reserved => reservedFails op alg o
  | .param => paramFails op alg o
  | .targetAlign => (op = 0x20#8 ∨ op = 0x21#8 ∨ op = 0x22#8) ∧ o.src.toNat % 32 ≠ 0
  | .ctxState => (op = 0x04#8 ∨ op = 0x05#8) ∧ (s.slot o.ctx).state ≠ .active
  | .ctxAlg => (op = 0x04#8 ∨ op = 0x05#8) ∧ algCode (s.slot o.ctx).alg ≠ alg
  | .range => rangeFails op alg o s
  | .length => op = 0x04#8 ∧ 2 ^ 61 - 1 < (s.slot o.ctx).msg.length + o.len.toNat

/-- The order of R434, each check with its code of R431. -/
def priority : List (ErrCode × BitVec 8) :=
  [(.abort, 0x0C#8), (.fetchAlign, 0x01#8), (.fetchRange, 0x02#8), (.illegalOp, 0x03#8),
   (.illegalAlg, 0x04#8), (.reserved, 0x05#8), (.param, 0x06#8), (.targetAlign, 0x07#8),
   (.ctxState, 0x08#8), (.ctxAlg, 0x09#8), (.range, 0x0A#8), (.length, 0x0B#8)]

/-! ### Vocabulary: algorithms -/

/-- The absorption of R236 as a recursion on the data: full blocks first, the last 1 to 128 bytes (or the empty
data) with the last-block flag. `n` bounds the recursion. -/
def blake2bAbsorb : Nat → List Word64 → Nat → Bytes → List Word64
  | 0, h, t, D => blake2bF h (zeroPad 128 D) (BitVec.ofNat 128 (t + D.length)) true
  | n + 1, h, t, D =>
    if D.length ≤ 128 then blake2bF h (zeroPad 128 D) (BitVec.ofNat 128 (t + D.length)) true
    else blake2bAbsorb n (blake2bF h (D.take 128) (BitVec.ofNat 128 (t + 128)) false) (t + 128)
      (D.drop 128)

/-- The first `nn` bytes of a BLAKE2b state (R236). -/
def blake2bOut (h : List Word64) (nn : Nat) : Bytes := (h.flatMap bytesLE).take nn

/-- The tree of R264 to R266 over a message of at most 2^p chunks whose first chunk has index `j`: a message of
one chunk is that chunk, and a longer one is a parent whose left child holds the largest power of two of chunks
that leaves some for the right one. -/
def blake3Tree : Nat → Bytes → Nat → Blake3Output
  | 0, m, j => chunkOutput m j
  | p + 1, m, j =>
    if m.length ≤ 1024 * 2 ^ p then blake3Tree p m j
    else parentOutput (outputCV (blake3Tree p (m.take (1024 * 2 ^ p)) j))
      (outputCV (blake3Tree p (m.drop (1024 * 2 ^ p)) (j + 2 ^ p)))

end Sys2Proof.Claims

open Sys2Proof Sys2Proof.Machine Sys2Proof.Claims

/-! ### Reset, registers and the host -/

/-- R480: what power-on leaves, for every DMEM size and content, and what a reset with power held leaves, which
keeps DMEM when the core is idle; State.reset is a power-on. -/
def Obligations.ResetState : Prop :=
  (∀ (size : Nat) (init : Memory), resetRegisters (State.poweredOn size init) ∧
    (State.poweredOn size init).memSize = size ∧ (State.poweredOn size init).dmem = init) ∧
  (∃ init, State.reset = State.poweredOn State.reset.memSize init) ∧
  (∀ s : State, resetRegisters s.platformReset ∧ s.platformReset.memSize = s.memSize ∧
    (s.busy = false → s.platformReset.dmem = s.dmem))

/-- The reset state satisfies the machine's invariant and holds no byte of unknown value. The MEM_SIZE and
DMEM content it has are the model's choice (logs 1 and 2). -/
def Obligations.ResetInv : Prop := State.reset.inv = true ∧ State.reset.clean = true

/-- R456: an idle core executes nothing, and only a write of START to CTRL makes it busy. -/
def Obligations.IdleCore : Prop :=
  (∀ s : State, s.busy = false → step s = .next s) ∧
  (∀ (e : Event) (s t : State), s.busy = false → sysStep e s = .next t → t.busy = true →
    ∃ v : Word, e = .writeReg 0x08 4 v ∧ v.getLsbD 0 = true)

/-- R45, R46: ID and CAPS are constants, CAPS has a bit for exactly the algorithm codes, and writes to both are
ignored. -/
def Obligations.IdAndCaps : Prop :=
  (∀ s : State, hostReadReg 0x00 4 s = .next (0x48534831#32, s) ∧
    hostReadReg 0x04 4 s = .next (0x00007FFE#32, s)) ∧
  (∀ (s : State) (v : Word), hostWriteReg 0x00 4 v s = .next s ∧ hostWriteReg 0x04 4 v s = .next s) ∧
  (∀ n, (0x00007FFE#32).getLsbD n = true ↔ ∃ a, (algCode a).toNat = n)

/-- R39: undefined bits and the registers at 0x18 and 0x1C read as 0 and ignore writes; an access that is not
an aligned 32-bit word, or at 0x20 or above, is refused. -/
def Obligations.ReservedRegisters : Prop :=
  (∀ s : State, hostReadReg 0x18 4 s = .next (0, s) ∧ hostReadReg 0x1C 4 s = .next (0, s) ∧
    s.ctrl &&& ~~~0x00000004#32 = 0 ∧ s.status &&& ~~~0x0000FF0F#32 = 0) ∧
  (∀ (s : State) (v : Word), hostWriteReg 0x18 4 v s = .next s ∧ hostWriteReg 0x1C 4 v s = .next s ∧
    hostWriteReg 0x08 4 v s = hostWriteReg 0x08 4 (v &&& 7#32) s ∧
    hostWriteReg 0x0C 4 v s = hostWriteReg 0x0C 4 (v &&& 6#32) s) ∧
  (∀ (off size : Nat) (s : State) (v : Word), size ≠ 4 ∨ off % 4 ≠ 0 ∨ 0x20 ≤ off →
    hostReadReg off size s = .refused .hostAccess ∧ hostWriteReg off size v s = .refused .hostAccess)

/-- R47, R51, R52: what CTRL reads as, and the whole effect of a write to it, idle and busy. START makes the core
run the command at CMDPTR with its next step; what the step of a busy core does with a bad CMDPTR or a pending
abort is said in FaultPriority. -/
def Obligations.CtrlRegister : Prop :=
  (∀ s : State, hostReadReg 0x08 4 s = .next (if s.irqEn then 4#32 else 0#32, s)) ∧
  (∀ (s : State) (v : Word), s.busy = false → v.getLsbD 0 = true →
    let t := { s with irqEn := v.getLsbD 2, busy := true, done := false, err := false, errCode := 0 }
    hostWriteReg 0x08 4 v s = .next t ∧
    (s.clean = true → s.abortPend = false → s.cmdPtr.toNat % 32 = 0 →
      s.cmdPtr.toNat + 32 ≤ s.memSize →
      ∀ i, decode (s.memRead s.cmdPtr.toNat 32) = .ok i → step t = exec i t)) ∧
  (∀ (s : State) (v : Word), s.busy = false → v.getLsbD 0 = false →
    hostWriteReg 0x08 4 v s = .next { s with irqEn := v.getLsbD 2 }) ∧
  (∀ (s : State) (v : Word), s.busy = true →
    hostWriteReg 0x08 4 v s = .next { s with
      irqEn := v.getLsbD 2, abortPend := s.abortPend || v.getLsbD 1 })

/-- R48: the fields of STATUS, what a write clears, and that at most one of BUSY, DONE and ERR is 1 in a state
of the invariant. -/
def Obligations.StatusRegister : Prop :=
  (∀ s : State, hostReadReg 0x0C 4 s = .next (s.status, s) ∧
    s.status.toNat = 256 * s.errCode.toNat + (if s.matched then 8 else 0) + (if s.err then 4 else 0) +
      (if s.done then 2 else 0) + (if s.busy then 1 else 0)) ∧
  (∀ (s : State) (v : Word), hostWriteReg 0x0C 4 v s = .next { s with
    err := s.err && !v.getLsbD 2
    errCode := if v.getLsbD 2 then 0 else s.errCode
    done := s.done && !v.getLsbD 1 }) ∧
  (∀ s : State, s.inv = true →
    (s.busy = true → s.done = false ∧ s.err = false) ∧ (s.done = true → s.err = false) ∧
    (s.err = false → s.errCode = 0))

/-- R49: CMDPTR reads as the pointer and takes all 32 bits of a write while idle; a write while busy is
ignored. A read while busy answers the address of the command in progress or of the next one (R492), in the
model's reading (log 7, DEDUCED): the pointer before or after the command in progress, whether or not an abort is
latched; the counter of polls that moves on is the model's own field (log 7, DESIGN CHOICE). -/
def Obligations.CmdPtrRegister : Prop :=
  (∀ s : State, s.busy = false → hostReadReg 0x10 4 s = .next (s.cmdPtr, s)) ∧
  (∀ (s : State) (v : Word), s.busy = false → hostWriteReg 0x10 4 v s = .next { s with cmdPtr := v }) ∧
  (∀ (s : State) (v : Word), s.busy = true → hostWriteReg 0x10 4 v s = .next s) ∧
  (∀ s t : State, s.busy = true → step { s with abortPend := false } = .next t →
    hostReadReg 0x10 4 s = .next (s.cmdPtr, { s with polls := s.polls + 1 }) ∨
    hostReadReg 0x10 4 s = .next (t.cmdPtr, { s with polls := s.polls + 1 }))

/-- R50: ERRPTR reads as the register, ignores writes, takes the address of the command at every fault and abort,
and changes only there and at reset. -/
def Obligations.ErrPtrWrittenOnlyAtFaults : Prop :=
  (∀ s : State, hostReadReg 0x14 4 s = .next (s.errPtr, s)) ∧
  (∀ (s : State) (v : Word), hostWriteReg 0x14 4 v s = .next s) ∧
  (∀ (e : Event) (s t : State), sysStep e s = .next t → t.errPtr ≠ s.errPtr →
    e = .reset ∨ (e = .core ∧ s.busy = true ∧ t.err = true ∧ t.errPtr = s.cmdPtr)) ∧
  (∀ s t : State, s.busy = true → s.err = false → step s = .next t → t.err = true →
    t.errPtr = s.cmdPtr)

/-- R440: IRQ is the level IRQ_EN & (DONE | ERR); writing 1 to the bit that is set, clearing IRQ_EN, or START
drops it. -/
def Obligations.IrqOutput : Prop :=
  (∀ s : State, s.irq = true ↔ s.irqEn = true ∧ (s.done = true ∨ s.err = true)) ∧
  (∀ (s t : State) (v : Word), (s.done = true → v.getLsbD 1 = true) →
    (s.err = true → v.getLsbD 2 = true) → hostWriteReg 0x0C 4 v s = .next t → t.irq = false) ∧
  (∀ (s t : State) (v : Word), v.getLsbD 2 = false → hostWriteReg 0x08 4 v s = .next t → t.irq = false) ∧
  (∀ (s t : State) (v : Word), s.busy = false → v.getLsbD 0 = true →
    hostWriteReg 0x08 4 v s = .next t → t.irq = false) ∧
  (∀ s t : State, s.busy = true → s.done = false → s.err = false → step s = .next t → t.busy = false →
    t.irq = s.irqEn)

/-- R70, R71, R86: while the core is idle a host write of bytes inside DMEM is what a host read of them then
gives, and leaves every other byte; an access that reaches MEM_SIZE faults (the form of that stop is the
model's, log 12). -/
def Obligations.HostMemory : Prop :=
  (∀ (s : State) (a : Nat) (bs : Bytes), Memory.wf s.dmem = true → s.busy = false → s.clean = true →
    InRange s a bs.length →
    ∃ t, hostWriteMem a bs s = .next t ∧ hostReadMem a bs.length t = .next (bs, t) ∧ Wrote s t a bs ∧
      t = { s with dmem := t.dmem }) ∧
  (∀ (s : State) (a n : Nat), ¬InRange s a n → hostReadMem a n s = .fault .noSuchAddress) ∧
  (∀ (s : State) (a : Nat) (bs : Bytes), ¬InRange s a bs.length →
    hostWriteMem a bs s = .fault .noSuchAddress)

/-- R492, U5: a host write of DMEM while the core is busy changes no register and no slot; the core's next read
of any byte that was not written, now or earlier in the run, gives its old value. A host write of those bytes
once the core is idle makes them hold what was written. R87, U6: a host read of DMEM while the core is busy
answers bytes and changes no register, no slot and no byte of DMEM. That each such read and each settling moves
on a counter of free values is the model's form (logs 5 and 6). -/
def Obligations.SpoiledBytes : Prop :=
  (∀ (s : State) (a : Nat) (bs : Bytes), s.busy = true → InRange s a bs.length →
    ∃ t, hostWriteMem a bs s = .next t ∧ t = { s with spoiled := t.spoiled } ∧
      (∀ x, x ∈ t.spoiled ↔ x ∈ s.spoiled ∨ (a ≤ x ∧ x < a + bs.length)) ∧
      (∀ x, x ∉ t.spoiled → Memory.read t.settle.dmem x = Memory.read s.dmem x)) ∧
  (∀ (s : State) (a : Nat) (bs : Bytes), Memory.wf s.dmem = true → s.busy = false →
    InRange s a bs.length →
    ∃ t, hostWriteMem a bs s = .next t ∧ t.settle.memRead a bs.length = bs) ∧
  (∀ (s : State) (a n : Nat), s.busy = true → InRange s a n →
    ∃ bs t, hostReadMem a n s = .next (bs, t) ∧ bs.length = n ∧ t = { s with draws := t.draws })

/-! ### Fetch, decode, step -/

/-- A step runs the decoded command: when the 32 bytes at CMDPTR decode to `i`, the step is `exec i`, with no
byte of unknown value in the state itself. For bytes that the host wrote during the run (R492), the step is
`exec i` in the state whose bytes of unknown value are drawn afresh before the command: that is the model's
reading (log 5, DEDUCED), not a rule's words. -/
def Obligations.StepRunsDecoded : Prop :=
  (∀ (s : State) (i : Instr), s.busy = true → s.abortPend = false → s.cmdPtr.toNat % 32 = 0 →
    s.cmdPtr.toNat + 32 ≤ s.memSize → decode (s.settle.memRead s.cmdPtr.toNat 32) = .ok i →
    step s = exec i s.settle) ∧
  (∀ s : State, s.clean = true → s.settle = s)

/-- R35: the fetch checks, alignment first, and the wrap of CMDPTR from 2^32 - 32 to 0. -/
def Obligations.FetchFaults : Prop :=
  (∀ s : State, s.busy = true → s.abortPend = false → s.clean = true → s.cmdPtr.toNat % 32 ≠ 0 →
    step s = .next (faultState s 0x01#8)) ∧
  (∀ s : State, s.busy = true → s.abortPend = false → s.clean = true → s.cmdPtr.toNat % 32 = 0 →
    s.memSize < s.cmdPtr.toNat + 32 → step s = .next (faultState s 0x02#8)) ∧
  (∀ s : State, s.cmdPtr = 0xFFFFFFE0#32 →
    (s.memSize ≤ 2 ^ 32 → (s.cmdPtr.toNat + 32 ≤ s.memSize ↔ s.memSize = 2 ^ 32)) ∧
    exec (.nop {}) s = .next { s with cmdPtr := 0 })

/-- R435: a pending abort is taken before the fetch, whatever stands at CMDPTR: the code, ERRPTR, ERR and BUSY are
written and the command there has no effect; a run that ends, by a STOP, a fault or the abort, leaves no abort
pending. -/
def Obligations.AbortTaken : Prop :=
  (∀ s : State, s.busy = true → s.abortPend = true →
    step s = .next { s with
      abortPend := false, errCode := 0x0C#8, errPtr := s.cmdPtr, err := true, busy := false }) ∧
  (∀ s t : State, s.busy = true → step s = .next t → t.busy = false → t.abortPend = false)

/-- R100 to R103, R104, R105 and every row of opcode_table.json: the descriptor of each command, written out
byte by byte with every operand field at every value, decodes to that command with those fields. -/
def Obligations.DescriptorRows : Prop :=
  ∀ r ∈ rows, ∀ o : Operands, decode (rowBytes r.2 o) = .ok (r.1 o)

/-- Decoding what the encoder writes gives the command back, for every command and every field value. -/
def Obligations.DecodeEncode : Prop := ∀ i : Instr, decode (encode i) = .ok i

/-- A descriptor that decodes is the encoding of the command it decodes to: no two descriptors mean the same
and no bit is ignored (R100: a decoder always consumes 32 bytes). -/
def Obligations.EncodeDecode : Prop :=
  ∀ (d : Bytes) (i : Instr), d.length = 32 → decode d = .ok i → encode i = d

/-- R108 with R104 and R106: exactly the OP codes outside the list are E_ILLEGAL_OP, and exactly the ALG codes
outside a hash operation's set are E_ILLEGAL_ALG. A non-zero ALG on any other operation is E_RESERVED (R109); that
the decoder answers it, and leaves every other reserved field to the command, is the model's split (log 4,
DEDUCED). -/
def Obligations.DecodeRejects : Prop :=
  ∀ d : Bytes,
    (decode d = .error .illegalOp ↔ opField d ∉ opCodes) ∧
    (decode d = .error .illegalAlg ↔ isHashOp (opField d) ∧ algBits d ∉ algCodes (opField d)) ∧
    (decode d = .error .reserved ↔
      opField d ∈ opCodes ∧ ¬isHashOp (opField d) ∧ algBits d ≠ 0)

/-- A few descriptors of 95_test_vectors.md and of the rules' own encodings, as words. -/
def Obligations.SampleWords : Prop :=
  decodeTableWord 32 0x00000000 = some (.nop {}) ∧
  decodeTableWord 32 0x0000002F = some (.stop {}) ∧
  decodeTableWord 32 0x00000101 = some (.hashMd5 {}) ∧
  decodeTableWord 32 0x00000302 = some (.verifySha256 {}) ∧
  decodeTableWord 32 0x0000A703 = some (.initSiphash { ctx := 5#3 }) ∧
  decodeTableWord 32 0x00004304 = some (.updateSha256 { ctx := 2#3 }) ∧
  decodeTableWord 32 0x0000E505 = some (.finalBlake2b { ctx := 7#3 }) ∧
  decodeTableWord 32 0x40400501 = some (.hashBlake2b { param := 64#8, klen := 64#8 }) ∧
  decodeTableWord 32 0x00410010 = some (.rotl { param := 0x41#8 }) ∧
  decodeTableWord 64 0x0000004000000020 = some (.jump { src := 0x40#32 }) ∧
  decodeTableWord 32 0x00000006 = none ∧
  decodeTableWord 32 0x00000702 = none ∧
  decodeTableWord 32 0x00000100 = none

/-! ### Hash operations -/

/-- R145: the decoded parameters of each algorithm. The one record for all algorithms, with its unused fields 0
and one field `mode`, is the model's form (log 15, DESIGN CHOICE), and so are the values of a field that R145's
checks reject (log 17, DESIGN CHOICE). -/
def Obligations.DecodedParameters : Prop :=
  ∀ o : Operands,
    (∀ a ∈ [Alg.md5, .sha1, .sha256, .sha384], decodeParams a o = {}) ∧
    decodeParams .blake2b o =
      { outlen := if o.param = 0 then 32 else o.param.toNat, klen := o.klen.toNat } ∧
    decodeParams .blake3 o = { outlen := if o.xlen = 0 then 32 else o.xlen.toNat } ∧
    (o.param = 0 → decodeParams .siphash o = { c := 2, d := 4 }) ∧
    (o.param = 1 → decodeParams .siphash o = { c := 1, d := 3 }) ∧
    (o.param = 2 → decodeParams .siphash o = { c := 4, d := 8 }) ∧
    (∀ a ∈ [Alg.murmur3_32, .murmur3_128, .xxh32, .xxh64, .city64, .city128, .farm64],
      decodeParams a o = { mode := o.param.toNat })

/-- R146: every result has the length the table gives, for every algorithm, key, message and legal parameter. -/
def Obligations.DigestLength : Prop :=
  ∀ (a : Alg) (o : Operands) (aux m : Bytes), ¬paramFails 0x01#8 (algCode a) o →
    (digest a (decodeParams a o) aux m).length = outBytes (algCode a) o

/-- R147: the function each algorithm code selects, and the bytes of its result. -/
def Obligations.DigestTable : Prop :=
  ∀ (p : Params) (a m : Bytes),
    digest .md5 p a m = md5 m ∧ digest .sha1 p a m = sha1 m ∧
    digest .sha256 p a m = sha256 m ∧ digest .sha384 p a m = sha384 m ∧
    digest .blake2b p a m = blake2b m a p.outlen ∧ digest .blake3 p a m = blake3 m p.outlen ∧
    digest .siphash p a m = bytesLE (sipHash p.c p.d (readLE 64 a 0) (readLE 64 a 8) m) ∧
    (p.mode = 0 →
      digest .murmur3_32 p a m = bytesLE (murmur3x32 m 0) ∧
      digest .murmur3_128 p a m = bytesLE (murmur3x128 m 0).1 ++ bytesLE (murmur3x128 m 0).2 ∧
      digest .xxh32 p a m = bytesLE (xxh32 m 0) ∧ digest .xxh64 p a m = bytesLE (xxh64 m 0) ∧
      digest .city64 p a m = bytesLE (city64 m) ∧
      digest .city128 p a m = bytesLE (city128 m).1 ++ bytesLE (city128 m).2 ∧
      digest .farm64 p a m = bytesLE (farm64 m)) ∧
    (p.mode = 1 →
      digest .murmur3_32 p a m = bytesLE (murmur3x32 m (readLE 32 a 0)) ∧
      digest .murmur3_128 p a m =
        bytesLE (murmur3x128 m (readLE 32 a 0)).1 ++ bytesLE (murmur3x128 m (readLE 32 a 0)).2 ∧
      digest .xxh32 p a m = bytesLE (xxh32 m (readLE 32 a 0)) ∧
      digest .xxh64 p a m = bytesLE (xxh64 m (readLE 64 a 0)) ∧
      digest .city64 p a m = bytesLE (city64WithSeed m (readLE 64 a 0)) ∧
      digest .city128 p a m =
        bytesLE (city128WithSeed m (readLE 64 a 0) (readLE 64 a 8)).1 ++
          bytesLE (city128WithSeed m (readLE 64 a 0) (readLE 64 a 8)).2 ∧
      digest .farm64 p a m = bytesLE (farm64WithSeed m (readLE 64 a 0))) ∧
    (p.mode = 2 →
      digest .city64 p a m = bytesLE (city64WithSeeds m (readLE 64 a 0) (readLE 64 a 8)) ∧
      digest .farm64 p a m = bytesLE (farm64WithSeeds m (readLE 64 a 0) (readLE 64 a 8)))

/-- R140: HASH of each of the fourteen algorithms (hashMd5, hashSha1, hashSha256, hashSha384, hashBlake2b,
hashBlake3, hashSiphash, hashMurmur3_32, hashMurmur3_128, hashXxh32, hashXxh64, hashCity64, hashCity128,
hashFarm64): its checks in order; when they pass it completes with the digest of the message at DST, every
other byte of DMEM, MATCH, every slot and every other register unchanged. -/
def Obligations.HashRule : Prop :=
  RejectsOtherAlgs 0x01#8 ∧
  ∀ c ∈ hashCommands, ∀ (o : Operands) (s : State), Memory.wf s.dmem = true →
    Checked (c.2 o) s
      [(0x05#8, reservedFails 0x01#8 (algCode c.1) o),
       (0x06#8, paramFails 0x01#8 (algCode c.1) o),
       (0x0A#8, ¬hashInRange (algCode c.1) o s)]
      (Stores (c.2 o) s o.dst.toNat
        (digest c.1 (decodeParams c.1 o) (s.memRead o.aux.toNat (auxBytes (algCode c.1) o))
          (s.memRead o.src.toNat o.len.toNat)))

/-- R141: VERIFY of each of the six digest algorithms (verifyMd5, verifySha1, verifySha256, verifySha384,
verifyBlake2b, verifyBlake3): its checks in order; when they pass it completes with MATCH = 1 exactly when the
digest is the expected one, and nothing else changed but CMDPTR. -/
def Obligations.VerifyRule : Prop :=
  RejectsOtherAlgs 0x02#8 ∧
  ∀ c ∈ verifyCommands, ∀ (o : Operands) (s : State),
    Checked (c.2 o) s
      [(0x05#8, reservedFails 0x02#8 (algCode c.1) o),
       (0x06#8, paramFails 0x02#8 (algCode c.1) o),
       (0x0A#8, ¬hashInRange (algCode c.1) o s)]
      (exec (c.2 o) s = .next { s with
        matched := decide
          (digest c.1 (decodeParams c.1 o) (s.memRead o.aux.toNat (auxBytes (algCode c.1) o))
              (s.memRead o.src.toNat o.len.toNat) =
            s.memRead o.dst.toNat (outBytes (algCode c.1) o))
        cmdPtr := s.cmdPtr + 32#32 })

/-- R142: INIT of each of the nine streaming algorithms (initMd5, initSha1, initSha256, initSha384,
initBlake2b, initBlake3, initSiphash, initXxh32, initXxh64): its checks in order; when they pass it completes
with slot CTX ACTIVE, holding the algorithm, the parameters, the AUX bytes and the empty message, whatever the
slot held, and nothing else changed but CMDPTR. -/
def Obligations.InitRule : Prop :=
  RejectsOtherAlgs 0x03#8 ∧
  ∀ c ∈ initCommands, ∀ (o : Operands) (s : State),
    Checked (c.2 o) s
      [(0x05#8, reservedFails 0x03#8 (algCode c.1) o),
       (0x06#8, paramFails 0x03#8 (algCode c.1) o),
       (0x0A#8, ¬InRange s o.aux.toNat (auxBytes (algCode c.1) o))]
      (exec (c.2 o) s = .next { s with
        slots := s.slots.set o.ctx.toNat
          ⟨.active, c.1, decodeParams c.1 o, s.memRead o.aux.toNat (auxBytes (algCode c.1) o), []⟩
          o.ctx.isLt
        cmdPtr := s.cmdPtr + 32#32 })

/-- R143, R148: UPDATE of each of the nine streaming algorithms (updateMd5, updateSha1, updateSha256,
updateSha384, updateBlake2b, updateBlake3, updateSiphash, updateXxh32, updateXxh64): its checks in order; when
they pass it completes with the bytes at SRC appended to the slot's message, and nothing else changed but
CMDPTR. -/
def Obligations.UpdateRule : Prop :=
  RejectsOtherAlgs 0x04#8 ∧
  ∀ c ∈ updateCommands, ∀ (o : Operands) (s : State),
    Checked (c.2 o) s
      [(0x05#8, reservedFails 0x04#8 (algCode c.1) o),
       (0x08#8, (s.slot o.ctx).state ≠ .active),
       (0x09#8, (s.slot o.ctx).alg ≠ c.1),
       (0x0A#8, ¬InRange s o.src.toNat o.len.toNat),
       (0x0B#8, 2 ^ 61 - 1 < (s.slot o.ctx).msg.length + o.len.toNat)]
      (exec (c.2 o) s = .next { s with
        slots := s.slots.set o.ctx.toNat
          { s.slot o.ctx with
            msg := (s.slot o.ctx).msg ++ s.memRead o.src.toNat o.len.toNat }
          o.ctx.isLt
        cmdPtr := s.cmdPtr + 32#32 })

/-- R144: FINAL of each of the nine streaming algorithms (finalMd5, finalSha1, finalSha256, finalSha384,
finalBlake2b, finalBlake3, finalSiphash, finalXxh32, finalXxh64): its checks in order; when they pass it
completes with the digest of the slot's message at DST and the slot FINALIZED, every other byte, slot and
register unchanged. -/
def Obligations.FinalRule : Prop :=
  RejectsOtherAlgs 0x05#8 ∧
  ∀ c ∈ finalCommands, ∀ (o : Operands) (s : State), Memory.wf s.dmem = true →
    Checked (c.2 o) s
      [(0x05#8, reservedFails 0x05#8 (algCode c.1) o),
       (0x08#8, (s.slot o.ctx).state ≠ .active),
       (0x09#8, (s.slot o.ctx).alg ≠ c.1),
       (0x0A#8, ¬finalInRange o s)]
      (∃ t, exec (c.2 o) s = .next t ∧
        Wrote s t o.dst.toNat
          (digest c.1 (s.slot o.ctx).prm (s.slot o.ctx).aux (s.slot o.ctx).msg) ∧
        t = { s with
          dmem := t.dmem
          slots := s.slots.set o.ctx.toNat { s.slot o.ctx with state := .finalized } o.ctx.isLt
          cmdPtr := s.cmdPtr + 32#32 })

/-- R149: for every streaming algorithm, parameters, AUX bytes and split of a message into pieces anywhere in
DMEM, INIT, the UPDATEs and FINAL leave DMEM as one HASH of the whole message does. -/
def Obligations.StreamingEquivalence : Prop :=
  ∀ c ∈ streaming, ∀ (s : State) (ctx : BitVec 3) (param klen : BitVec 8) (aux xlen src len dst : Word)
    (pieces : List (Word × Word)),
    let o : Operands :=
      { param := param, klen := klen, src := src, len := len, dst := dst, aux := aux, xlen := xlen }
    ¬reservedFails 0x01#8 (algCode c.alg) o → ¬paramFails 0x01#8 (algCode c.alg) o →
    hashInRange (algCode c.alg) o s →
    (∀ q ∈ pieces, InRange s q.1.toNat q.2.toNat) →
    s.memRead src.toNat len.toNat = pieces.flatMap (fun q => s.memRead q.1.toNat q.2.toNat) →
    ∃ t u, exec (c.hash o) s = .next t ∧
      execAll
        (c.init { ctx := ctx, param := param, klen := klen, aux := aux, xlen := xlen } ::
          pieces.map (fun q => c.update { ctx := ctx, src := q.1, len := q.2 }) ++
          [c.final { ctx := ctx, dst := dst }]) s = .next u ∧
      t.err = s.err ∧ u.err = s.err ∧ u.dmem = t.dmem ∧ (u.slot ctx).state = .finalized

/-- R150: HASH over equal bytes with equal fields writes equal results, whatever else the two states hold; and
VERIFY sets MATCH exactly when HASH with the same fields would write the expected bytes. -/
def Obligations.DigestDeterminism : Prop :=
  (∀ c ∈ hashCommands, ∀ (o o' : Operands) (s s' : State),
    Memory.wf s.dmem = true → Memory.wf s'.dmem = true →
    (∀ p ∈ [(o, s), (o', s')], ¬reservedFails 0x01#8 (algCode c.1) p.1 ∧
      ¬paramFails 0x01#8 (algCode c.1) p.1 ∧ hashInRange (algCode c.1) p.1 p.2) →
    o.param = o'.param → o.klen = o'.klen → o.xlen = o'.xlen →
    s.memRead o.src.toNat o.len.toNat = s'.memRead o'.src.toNat o'.len.toNat →
    s.memRead o.aux.toNat (auxBytes (algCode c.1) o) =
      s'.memRead o'.aux.toNat (auxBytes (algCode c.1) o') →
    ∃ t t', exec (c.2 o) s = .next t ∧ exec (c.2 o') s' = .next t' ∧
      t.memRead o.dst.toNat (outBytes (algCode c.1) o) =
        t'.memRead o'.dst.toNat (outBytes (algCode c.1) o')) ∧
  (∀ c ∈ verifyAndHash, ∀ (o : Operands) (s : State), Memory.wf s.dmem = true →
    ¬reservedFails 0x01#8 (algCode c.1) o → ¬paramFails 0x01#8 (algCode c.1) o →
    hashInRange (algCode c.1) o s →
    ∃ t u, exec (c.2.1 o) s = .next t ∧ exec (c.2.2 o) s = .next u ∧
      (t.matched = true ↔
        u.memRead o.dst.toNat (outBytes (algCode c.1) o) =
          s.memRead o.dst.toNat (outBytes (algCode c.1) o)))

/-! ### Algorithms -/

/-- R151, R152: the padding is the message, 0x80, the least number of zero bytes and the bit length in the
chosen byte order, a whole number of blocks; one block more than the message's whole blocks below the
threshold, two from the threshold on. -/
def Obligations.MdPadding : Prop :=
  ∀ (m : Bytes) (B L : Nat) (order : ByteOrder), L < B → 8 * m.length < 256 ^ L →
    (∃ (k : Nat) (bits : Bytes),
      mdPad m B L order = m ++ [0x80#8] ++ zeros k ++ bits ∧ bits.length = L ∧
      natLE (if order = .little then bits else bits.reverse) = 8 * m.length ∧
      (m.length + 1 + k + L) % B = 0 ∧ ∀ j < k, (m.length + 1 + j + L) % B ≠ 0) ∧
    (mdPad m B L order).length =
      B * (m.length / B + (if m.length % B < B - L then 1 else 2))

/-- R153: the iteration compresses the blocks in order, and MD5, SHA-1, SHA-256 and SHA-384 are that iteration
over their padded message. -/
def Obligations.MdIteration : Prop :=
  (∀ (σ : Type) (C : σ → Bytes → σ) (B : Nat) (h0 : σ), 0 < B →
    mdIterate C B h0 [] = h0 ∧
    ∀ P blk : Bytes, P.length % B = 0 → blk.length = B →
      mdIterate C B h0 (P ++ blk) = C (mdIterate C B h0 P) blk) ∧
  (∀ m : Bytes,
    md5 m =
      (let h := mdIterate md5Compress 64 md5IV (mdPad m 64 8 .little)
       bytesLE h.a ++ bytesLE h.b ++ bytesLE h.c ++ bytesLE h.d) ∧
    sha1 m =
      (let h := mdIterate sha1Compress 64 sha1IV (mdPad m 64 8 .big)
       bytesBE h.a ++ bytesBE h.b ++ bytesBE h.c ++ bytesBE h.d ++ bytesBE h.e) ∧
    sha256 m = sha2Serialise (mdIterate (sha2Compress sha256Core) 64 sha256IV (mdPad m 64 8 .big)) ∧
    sha384 m =
      (sha2Serialise (mdIterate (sha2Compress sha512Core) 128 sha384IV (mdPad m 128 16 .big))).take 48)

/-- R237 with R236: BLAKE2b without a key absorbs the message; with a key and no message it compresses the key
block once, as the last block, with t = 128; with both, the key block first and not last, then the message. -/
def Obligations.Blake2bKeyCases : Prop :=
  ∀ (m key : Bytes) (nn : Nat), key.length ≤ 64 →
    (key = [] → blake2b m key nn = blake2bOut (blake2bAbsorb m.length (blake2bInit 0 nn) 0 m) nn) ∧
    (key ≠ [] → m = [] →
      blake2b m key nn =
        blake2bOut (blake2bF (blake2bInit key.length nn) (zeroPad 128 key) 128#128 true) nn) ∧
    (key ≠ [] → m ≠ [] →
      blake2b m key nn =
        blake2bOut
          (blake2bAbsorb m.length
            (blake2bF (blake2bInit key.length nn) (zeroPad 128 key) 128#128 false) 128 m) nn)

/-- R267: byte `i` of a BLAKE3 output is byte `i mod 64` of the root compression with output counter `i / 64`;
so a shorter output begins a longer one. -/
def Obligations.Blake3Output : Prop :=
  ∀ (m : Bytes) (n : Nat),
    (blake3 m n).length = n ∧
    (∀ i < n,
      let r := blake3Root m
      (blake3 m n)[i]? =
        ((blake3Compress r.cv r.block (BitVec.ofNat 64 (i / 64)) r.blen
          (r.flags ||| rootFlag)).flatMap bytesLE)[i % 64]?) ∧
    (∀ k ≤ n, (blake3 m n).take k = blake3 m k)

/-- R264 to R266 and R268: a message of at most 1024 bytes has its one chunk as the root; a message of 1025 to
2048 bytes has a parent of two chunks as the root; and for a message of any length the stack of R266, with one
merge for each trailing zero bit of the number of chunks, builds the tree whose left children are full. -/
def Obligations.Blake3Tree : Prop :=
  ∀ m : Bytes,
    (m.length ≤ 1024 → blake3Root m = chunkOutput m 0) ∧
    (1024 < m.length → m.length ≤ 2048 →
      blake3Root m = parentOutput (outputCV (chunkOutput (m.take 1024) 0))
        (outputCV (chunkOutput (m.drop 1024) 1))) ∧
    (∀ p, m.length ≤ 1024 * 2 ^ p → blake3Root m = blake3Tree p m 0)

/-- R292: the message words of SipHash are the message, zero bytes up to byte 7 of the last word, and the
length mod 256 in that byte. -/
def Obligations.SipHashWords : Prop :=
  ∀ m : Bytes,
    (sipWords m ++ [sipLast m]).flatMap bytesLE =
      m ++ zeros (7 - m.length % 8) ++ [BitVec.ofNat 8 m.length]

/-- R317 and R147: a stored seed of 0 gives the result of no seed, for Murmur3 and xxHash. -/
def Obligations.ZeroSeedIsNoSeed : Prop :=
  ∀ m : Bytes,
    digest .murmur3_32 { mode := 1 } (zeros 4) m = digest .murmur3_32 {} [] m ∧
    digest .murmur3_128 { mode := 1 } (zeros 4) m = digest .murmur3_128 {} [] m ∧
    digest .xxh32 { mode := 1 } (zeros 4) m = digest .xxh32 {} [] m ∧
    digest .xxh64 { mode := 1 } (zeros 8) m = digest .xxh64 {} [] m

/-- R372: FarmHash64 and CityHash64 agree on messages of at most 32 bytes. -/
def Obligations.FarmIsCityUpTo32 : Prop := ∀ m : Bytes, m.length ≤ 32 → farm64 m = city64 m

/-! ### Primitives -/

/-- R390: ROTL (rotl), its checks in order; when they pass it completes with the operand rotated left at DST. -/
def Obligations.RotlRule : Prop :=
  RejectsAnyAlg 0x10#8 ∧ ∀ (o : Operands) (s : State), Memory.wf s.dmem = true →
    Checked (.rotl o) s
      [(0x05#8, reservedFails 0x10#8 0 o),
       (0x06#8, width o ≤ amount o),
       (0x0A#8, ¬(InRange s o.src.toNat (width o / 8) ∧ InRange s o.dst.toNat (width o / 8)))]
      (Stores (.rotl o) s o.dst.toNat
        (natBytesLE (width o / 8)
          ((BitVec.ofNat (width o) (natLE (s.memRead o.src.toNat (width o / 8)))).rotateLeft
            (amount o)).toNat))

/-- R391: ROTR (rotr), its checks in order; when they pass it completes with the operand rotated right at
DST; by AMT that is to the left by W - AMT, and by 0 a copy. -/
def Obligations.RotrRule : Prop :=
  RejectsAnyAlg 0x11#8 ∧ ∀ (o : Operands) (s : State), Memory.wf s.dmem = true →
    Checked (.rotr o) s
      [(0x05#8, reservedFails 0x11#8 0 o),
       (0x06#8, width o ≤ amount o),
       (0x0A#8, ¬(InRange s o.src.toNat (width o / 8) ∧ InRange s o.dst.toNat (width o / 8)))]
      (Stores (.rotr o) s o.dst.toNat
          (natBytesLE (width o / 8)
            ((BitVec.ofNat (width o) (natLE (s.memRead o.src.toNat (width o / 8)))).rotateRight
              (amount o)).toNat) ∧
        (0 < amount o →
          Stores (.rotr o) s o.dst.toNat
            (natBytesLE (width o / 8)
              ((BitVec.ofNat (width o) (natLE (s.memRead o.src.toNat (width o / 8)))).rotateLeft
                (width o - amount o)).toNat)) ∧
        (amount o = 0 →
          Stores (.rotr o) s o.dst.toNat (s.memRead o.src.toNat (width o / 8))))

/-- R392: BSWAP (bswap), its checks in order; when they pass it completes with the operand's bytes reversed at
DST. -/
def Obligations.BswapRule : Prop :=
  RejectsAnyAlg 0x12#8 ∧ ∀ (o : Operands) (s : State), Memory.wf s.dmem = true →
    Checked (.bswap o) s
      [(0x05#8, reservedFails 0x12#8 0 o),
       (0x06#8, width o = 8),
       (0x0A#8, ¬(InRange s o.src.toNat (width o / 8) ∧ InRange s o.dst.toNat (width o / 8)))]
      (Stores (.bswap o) s o.dst.toNat (s.memRead o.src.toNat (width o / 8)).reverse)

/-- R393: MUL128 (mul128), its checks in order; when they pass it completes with the exact product of the two
16-byte operands in 32 bytes at DST. -/
def Obligations.Mul128Rule : Prop :=
  RejectsAnyAlg 0x13#8 ∧ ∀ (o : Operands) (s : State), Memory.wf s.dmem = true →
    Checked (.mul128 o) s
      [(0x05#8, reservedFails 0x13#8 0 o),
       (0x0A#8, ¬(InRange s o.src.toNat 16 ∧ InRange s o.aux.toNat 16 ∧ InRange s o.dst.toNat 32))]
      (Stores (.mul128 o) s o.dst.toNat
        (natBytesLE 32 (natLE (s.memRead o.src.toNat 16) * natLE (s.memRead o.aux.toNat 16))))

/-- R394: ROTR undoes ROTL, BSWAP undoes itself, MUL128 is commutative and its low half is the product modulo
2^128, and none of them changes a slot. -/
def Obligations.PrimitiveLaws : Prop :=
  (∀ (s : State) (param : BitVec 8) (src mid dst : Word), Memory.wf s.dmem = true →
    let o : Operands := { param := param, src := src, dst := mid }
    let o' : Operands := { param := param, src := mid, dst := dst }
    let n := width o / 8
    amount o < width o → InRange s src.toNat n → InRange s mid.toNat n → InRange s dst.toNat n →
    ∃ t u, exec (.rotl o) s = .next t ∧ exec (.rotr o') t = .next u ∧
      u.memRead dst.toNat n = s.memRead src.toNat n ∧ u.slots = s.slots) ∧
  (∀ (s : State) (param : BitVec 8) (src mid dst : Word), Memory.wf s.dmem = true →
    let o : Operands := { param := param, src := src, dst := mid }
    let o' : Operands := { param := param, src := mid, dst := dst }
    let n := width o / 8
    amount o = 0 → 8 < width o → InRange s src.toNat n → InRange s mid.toNat n →
    InRange s dst.toNat n →
    ∃ t u, exec (.bswap o) s = .next t ∧ exec (.bswap o') t = .next u ∧
      u.memRead dst.toNat n = s.memRead src.toNat n ∧ u.slots = s.slots) ∧
  (∀ (s : State) (src aux dst : Word), Memory.wf s.dmem = true →
    InRange s src.toNat 16 → InRange s aux.toNat 16 → InRange s dst.toNat 32 →
    ∃ t, exec (.mul128 { src := src, aux := aux, dst := dst }) s = .next t ∧
      exec (.mul128 { src := aux, aux := src, dst := dst }) s = .next t ∧ t.slots = s.slots ∧
      natLE (t.memRead dst.toNat 16) =
        natLE (s.memRead src.toNat 16) * natLE (s.memRead aux.toNat 16) % 2 ^ 128)

/-! ### Control -/

/-- R410: JUMP (jump), its checks in order; when they pass it completes with CMDPTR at TARGET and nothing else
changed. -/
def Obligations.JumpRule : Prop :=
  RejectsAnyAlg 0x20#8 ∧ ∀ (o : Operands) (s : State),
    Checked (.jump o) s
      [(0x05#8, reservedFails 0x20#8 0 o), (0x07#8, o.src.toNat % 32 ≠ 0)]
      (exec (.jump o) s = .next { s with cmdPtr := o.src })

/-- R411: JMATCH (jmatch), its checks in order, taken or not; when they pass it completes at TARGET with
MATCH = 1 and at the next descriptor with MATCH = 0, and nothing else changed. -/
def Obligations.JmatchRule : Prop :=
  RejectsAnyAlg 0x21#8 ∧ ∀ (o : Operands) (s : State),
    Checked (.jmatch o) s
      [(0x05#8, reservedFails 0x21#8 0 o), (0x07#8, o.src.toNat % 32 ≠ 0)]
      (exec (.jmatch o) s =
        .next { s with cmdPtr := if s.matched then o.src else s.cmdPtr + 32#32 })

/-- R412: JNMATCH (jnmatch), its checks in order, taken or not; when they pass it completes at TARGET with
MATCH = 0 and at the next descriptor with MATCH = 1, and nothing else changed. -/
def Obligations.JnmatchRule : Prop :=
  RejectsAnyAlg 0x22#8 ∧ ∀ (o : Operands) (s : State),
    Checked (.jnmatch o) s
      [(0x05#8, reservedFails 0x22#8 0 o), (0x07#8, o.src.toNat % 32 ≠ 0)]
      (exec (.jnmatch o) s =
        .next { s with cmdPtr := if s.matched then s.cmdPtr + 32#32 else o.src })

/-- R413: NOP (nop) faults when any field is not 0; otherwise it completes with only CMDPTR moved. -/
def Obligations.NopRule : Prop :=
  RejectsAnyAlg 0x00#8 ∧ ∀ (o : Operands) (s : State),
    Checked (.nop o) s [(0x05#8, o ≠ {})] (exec (.nop o) s = .next { s with cmdPtr := s.cmdPtr + 32#32 })

/-- R414: STOP (stop) faults when any field is not 0; otherwise it completes the run: BUSY = 0, DONE = 1, CMDPTR
at the next descriptor, a pending abort dropped (R44), and nothing else changed. -/
def Obligations.StopRule : Prop :=
  RejectsAnyAlg 0x2F#8 ∧ ∀ (o : Operands) (s : State),
    Checked (.stop o) s [(0x05#8, o ≠ {})]
      (exec (.stop o) s = .next { s with
        cmdPtr := s.cmdPtr + 32#32, busy := false, done := true, abortPend := false })

/-! ### The whole machine -/

/-- R415: a step that ends a run leaves DONE = 1 and ERR = 0 after a STOP, or DONE = 0 and ERR = 1 after a
fault or an abort, never both and never neither; off the end of DMEM it is the fault E_FETCH_RANGE. -/
def Obligations.RunEndsOneWay : Prop :=
  (∀ s t : State, s.inv = true → s.busy = true → step s = .next t → t.busy = false →
    (t.done = true ∧ t.err = false ∧ s.settle.command = .ok (.stop {})) ∨
    (t.done = false ∧ t.err = true)) ∧
  (∀ s : State, s.inv = true → s.busy = true → s.abortPend = false → s.cmdPtr.toNat % 32 = 0 →
    s.memSize < s.cmdPtr.toNat + 32 →
    ∃ t, step s = .next t ∧ t.busy = false ∧ t.done = false ∧ t.err = true ∧ t.errCode = 0x02#8)

/-- R34: CMDPTR after a command: its target for a taken jump, 32 more (modulo 2^32) for every other command
that does not fault, unchanged for one that faults. -/
def Obligations.PointerAfterCommand : Prop :=
  ∀ (i : Instr) (s t : State), s.err = false → exec i s = .next t →
    (t.err = true → t.cmdPtr = s.cmdPtr) ∧
    (t.err = false →
      t.cmdPtr.toNat =
        if i.op = .jump ∨ (i.op = .jmatch ∧ s.matched = true) ∨ (i.op = .jnmatch ∧ s.matched = false)
        then i.operands.src.toNat
        else (s.cmdPtr.toNat + 32) % 2 ^ 32)

/-- R36, R37: of everything that can happen, only a VERIFY and a reset change MATCH, and a reset clears it. -/
def Obligations.MatchWrittenOnlyByVerify : Prop :=
  (∀ (e : Event) (s t : State), sysStep e s = .next t → t.matched ≠ s.matched →
    (e = .reset ∧ t.matched = false) ∨
    (e = .core ∧ s.busy = true ∧ ∃ i, s.settle.command = .ok i ∧ i.op = .verify)) ∧
  (∀ (i : Instr) (s t : State), exec i s = .next t → i.op ≠ .verify → t.matched = s.matched)

/-- R31, R83: what each command can change in DMEM and in the slots, and five fields that no command changes
(STATUS, MATCH, CMDPTR, ERRPTR and the abort latch are other statements' matter). The five are IRQ_EN and the
model's own fields: MEM_SIZE as a field (log 1), the bytes of unknown value and the counter of draws (log 5), the
counter of polls (log 7). Only HASH, FINAL and the primitives change DMEM, and only from DST on for the length of
their result; only INIT, UPDATE and FINAL change a slot, and only the one CTX names. -/
def Obligations.CommandFrame : Prop :=
  ∀ (i : Instr) (s t : State), s.inv = true → exec i s = .next t →
    t.memSize = s.memSize ∧ t.irqEn = s.irqEn ∧ t.spoiled = s.spoiled ∧ t.draws = s.draws ∧
    t.polls = s.polls ∧
    (∀ x, Memory.read t.dmem x ≠ Memory.read s.dmem x →
      i.op ∈ [Op.hash, .final, .rotl, .rotr, .bswap, .mul128] ∧
      i.operands.dst.toNat ≤ x ∧ x < i.operands.dst.toNat + storedBytes i s) ∧
    (∀ c, t.slot c ≠ s.slot c →
      c = i.operands.ctx ∧ (i.op = .init ∨ i.op = .update ∨ i.op = .final))

/-- R434 with R431 and R432: when a check of the command at CMDPTR fails and none before it in the order does,
the step takes that check's fault, with no other effect. The checks read the descriptor's raw bits. -/
def Obligations.FaultPriority : Prop :=
  ∀ (s : State) (before after : List (ErrCode × BitVec 8)) (e : ErrCode) (code : BitVec 8),
    s.busy = true → s.clean = true → priority = before ++ (e, code) :: after →
    (∀ p ∈ before, ¬checkFails s p.1) → checkFails s e →
    step s = .next (faultState s code)

/-- R434, R430: when no check fails, the step completes the command without a fault. -/
def Obligations.NoFaultWithoutFailedCheck : Prop :=
  ∀ s : State, s.busy = true → s.clean = true → (∀ p ∈ priority, ¬checkFails s p.1) →
    ∃ i t, s.command = .ok i ∧ step s = .next t ∧ exec i s = .next t ∧
      t.err = s.err ∧ t.errCode = s.errCode ∧ t.errPtr = s.errPtr ∧ (t.busy = true ∨ t.done = true)

/-- R433: a step that faults has no effect but that of fault entry, and its code is one of 0x01 to 0x0C. -/
def Obligations.FaultsArePrecise : Prop :=
  ∀ s t : State, s.busy = true → s.clean = true → s.err = false → step s = .next t → t.err = true →
    ∃ code : BitVec 8, 1 ≤ code.toNat ∧ code.toNat ≤ 12 ∧ t = faultState s code

/-- R44: the abort latch is set only by a write of ABORT to CTRL while busy, and is clear after a step of the
core that takes it, whenever the core is idle, and after reset. -/
def Obligations.AbortLatch : Prop :=
  ∀ (e : Event) (s t : State), (s.abortPend = true → s.busy = true) → sysStep e s = .next t →
    (t.abortPend = true → t.busy = true) ∧
    (s.abortPend = false → t.abortPend = true →
      s.busy = true ∧ ∃ v : Word, e = .writeReg 0x08 4 v ∧ v.getLsbD 1 = true) ∧
    (e = .core → s.abortPend = true → t.abortPend = false) ∧
    (e = .reset → t.abortPend = false)

/-- R436, R437, R494: after a fault the slots, DMEM and MATCH are as the commands before it left them, and a
START alone runs the faulting command again from the same state. -/
def Obligations.ResumeAfterFault : Prop :=
  ∀ (s t : State) (v : Word), s.inv = true → s.clean = true → s.busy = true → step s = .next t →
    t.err = true → v.getLsbD 0 = true →
    t.slots = s.slots ∧ t.dmem = s.dmem ∧ t.matched = s.matched ∧ t.cmdPtr = s.cmdPtr ∧
    t.errPtr = s.cmdPtr ∧
    hostWriteReg 0x08 4 v t = .next { s with
      irqEn := v.getLsbD 2, errPtr := s.cmdPtr, abortPend := false }

/-- R482: a reset during a run gives every register and slot its reset value at once and keeps every DMEM byte
outside the range that the command in progress would write: only a HASH, a FINAL or a primitive has one, its
result's length from DST on. A command that would fault is not told apart here; that it has no such range is the
model's reading (log 8). -/
def Obligations.ResetDuringRun : Prop :=
  ∀ s : State, s.busy = true →
    resetRegisters s.platformReset ∧
    (∀ x, Memory.read s.platformReset.dmem x ≠ Memory.read s.dmem x →
      ∃ i, s.settle.command = .ok i ∧
        i.op ∈ [Op.hash, .final, .rotl, .rotr, .bswap, .mul128] ∧
        i.operands.dst.toNat ≤ x ∧ x < i.operands.dst.toNat + storedBytes i s)

/-- Every step of the core keeps the machine's invariant: DMEM in canonical form and inside MEM_SIZE, STATUS
consistent, every slot with legal parameters and at most MAX_TOTAL bytes, no abort pending while idle. -/
def Obligations.StepKeepsInv : Prop :=
  ∀ s t : State, s.inv = true → step s = .next t → t.inv = true

/-- Every event of the system (the core, the host at the registers and at DMEM, a reset) keeps it too. -/
def Obligations.EventKeepsInv : Prop :=
  ∀ (e : Event) (s t : State), s.inv = true → sysStep e s = .next t → t.inv = true
end

