-- ==== Sys2Proof/Laws/Blake3.lean ====
section
/-! SUPPORT. The laws of BLAKE3's tree (44_blake3.md R264 to R266): what one push does to the stack of chaining
values, and how the blocks of a string split. -/

namespace Sys2Proof.Machine

/-- After an odd number of chunks a push merges nothing (R266). -/
@[simp] theorem pushCV_odd (st : List (List Word)) (k : Nat) (cv : List Word) :
    pushCV st (2 * k + 1) cv = cv :: st := by
  cases st with
  | nil => rfl
  | cons top rest => rw [pushCV, if_neg (by omega)]

/-- After an even number of chunks a push merges the top first, as the left child, and goes on with half the
number (R266). -/
@[simp] theorem pushCV_even (top : List Word) (rest : List (List Word)) (k : Nat) (cv : List Word) :
    pushCV (top :: rest) (2 * k) cv = pushCV rest k (outputCV (parentOutput top cv)) := by
  rw [pushCV, if_pos (by omega), Nat.mul_div_cancel_left k (by omega)]

/-- The first `a` blocks come from the first `a * B` bytes, the others from the rest. -/
theorem blocks_add (B a b : Nat) (s : Bytes) :
    blocks B (a + b) s = blocks B a (s.take (a * B)) ++ blocks B b (s.drop (a * B)) := by
  induction a generalizing s with
  | zero => simp [blocks]
  | succ a ih =>
    rw [show a + 1 + b = a + b + 1 by omega, blocks, blocks, List.cons_append, ih, Nat.succ_mul]
    simp only [List.take_take, List.drop_take, List.drop_drop]
    rw [show a * B + B - B = a * B by omega, show min B (a * B + B) = B by omega,
      Nat.add_comm B (a * B)]

@[simp] theorem length_blocks (B n : Nat) (s : Bytes) : (blocks B n s).length = n := by
  induction n generalizing s with
  | zero => rfl
  | succ n ih => simp [blocks, ih]

end Sys2Proof.Machine
end

