-- ==== Sys2Proof/Laws/Codec.lean ====
section
/-! SUPPORT. The laws of the byte codec: lengths, and the little-endian reads and writes as inverses of each
other (00_scope.md R12); the rotations (R11). -/

namespace Sys2Proof.Machine

@[simp] theorem length_natBytesLE (n v : Nat) : (natBytesLE n v).length = n := by
  induction n generalizing v with
  | zero => rfl
  | succ n ih => simp [natBytesLE, ih]

@[simp] theorem length_bytesLE {w : Nat} (v : BitVec w) : (bytesLE v).length = w / 8 :=
  length_natBytesLE _ _

@[simp] theorem length_bytesBE {w : Nat} (v : BitVec w) : (bytesBE v).length = w / 8 := by
  simp [bytesBE]

@[simp] theorem length_zeros (n : Nat) : (zeros n).length = n := by simp [zeros]

/-- `n` bytes hold a number below 256^n. -/
theorem natLE_lt (bs : Bytes) : natLE bs < 256 ^ bs.length := by
  induction bs with
  | nil => simp [natLE]
  | cons b bs ih =>
    have hb : b.toNat < 256 := b.isLt
    rw [natLE, List.length_cons, Nat.pow_succ]
    omega

/-- The bytes of a number hold the number, as far as they reach. -/
theorem natLE_natBytesLE (n v : Nat) : natLE (natBytesLE n v) = v % 256 ^ n := by
  induction n generalizing v with
  | zero => simp [natBytesLE, natLE, Nat.mod_one]
  | succ n ih =>
    simp only [natBytesLE, natLE, ih, BitVec.toNat_ofNat]
    rw [show 256 ^ (n + 1) = 256 * 256 ^ n by rw [Nat.pow_succ, Nat.mul_comm], Nat.mod_mul]

/-- The number of a byte string has that string as its bytes. -/
theorem natBytesLE_natLE (bs : Bytes) : natBytesLE bs.length (natLE bs) = bs := by
  induction bs with
  | nil => rfl
  | cons b bs ih =>
    have hb : b.toNat < 256 := b.isLt
    simp only [List.length_cons, natBytesLE, natLE]
    congr 1
    · apply BitVec.eq_of_toNat_eq
      simp only [BitVec.toNat_ofNat]
      omega
    · rw [show (b.toNat + 256 * natLE bs) / 256 = natLE bs by omega, ih]

/-- A number of whole bytes is below 256 to their count. -/
theorem two_pow_bytes {w : Nat} (h : w % 8 = 0) : 2 ^ w = 256 ^ (w / 8) := by
  rw [show (256 : Nat) = 2 ^ 8 from rfl, ← Nat.pow_mul]
  congr 1
  omega

theorem natLE_bytesLE {w : Nat} (h : w % 8 = 0) (v : BitVec w) : natLE (bytesLE v) = v.toNat := by
  rw [bytesLE, natLE_natBytesLE, Nat.mod_eq_of_lt]
  rw [← two_pow_bytes h]
  exact v.isLt

/-- A slice that starts at 0 and takes everything. -/
theorem slice_all (s : Bytes) : slice s 0 s.length = s := by simp [slice]

/-- A slice behind a string of known length. -/
theorem slice_append_right (s t : Bytes) (n : Nat) : slice (s ++ t) s.length n = slice t 0 n := by
  simp [slice]

/-- The slice that covers the first part of a concatenation. -/
theorem slice_append_left (s t : Bytes) : slice (s ++ t) 0 s.length = s := by simp [slice]

/-- Reading back what `bytesLE` writes. -/
theorem readLE_bytesLE {w : Nat} (h : w % 8 = 0) (v : BitVec w) : readLE w (bytesLE v) 0 = v := by
  have e : slice (bytesLE v) 0 (w / 8) = bytesLE v := by
    rw [show w / 8 = (bytesLE v).length by simp, slice_all]
  apply BitVec.eq_of_toNat_eq
  rw [readLE, e, natLE_bytesLE h, BitVec.toNat_ofNat, Nat.mod_eq_of_lt v.isLt]

/-- Writing what `readLE` reads from a string of the word's own length. -/
theorem bytesLE_readLE {w : Nat} (h : w % 8 = 0) {bs : Bytes} (hl : bs.length = w / 8) :
    bytesLE (readLE w bs 0) = bs := by
  have e : slice bs 0 (w / 8) = bs := by rw [← hl, slice_all]
  have hlt : natLE bs < 2 ^ w := by rw [two_pow_bytes h, ← hl]; exact natLE_lt bs
  rw [bytesLE, readLE, e, BitVec.toNat_ofNat, Nat.mod_eq_of_lt hlt, ← hl, natBytesLE_natLE]

/-- Two words of equal bytes are equal. -/
theorem bytesLE_inj {w : Nat} (h : w % 8 = 0) {v v' : BitVec w} (e : bytesLE v = bytesLE v') :
    v = v' := by
  rw [← readLE_bytesLE h v, e, readLE_bytesLE h]

/-! ### Rotation -/

@[simp] theorem rotl_zero {w : Nat} (x : BitVec w) : rotl x 0 = x := rfl

@[simp] theorem rotr_zero {w : Nat} (x : BitVec w) : rotr x 0 = x := rfl

/-- Bit `i` of a left rotation. -/
theorem getLsbD_rotl {w r : Nat} (x : BitVec w) (hr : r < w) (i : Nat) :
    (rotl x r).getLsbD i = (decide (i < w) && x.getLsbD ((i + w - r) % w)) := by
  by_cases h0 : r = 0
  · subst h0
    by_cases hi : i < w
    · simp [rotl, hi, Nat.mod_eq_of_lt hi]
    · simp [rotl, hi]
      exact BitVec.getLsbD_of_ge _ _ (by omega)
  · simp only [rotl, h0, if_false, BitVec.getLsbD_or, BitVec.getLsbD_shiftLeft,
      BitVec.getLsbD_ushiftRight]
    by_cases hi : i < w
    · by_cases hir : i < r
      · rw [show (i + w - r) % w = w - r + i by rw [Nat.mod_eq_of_lt (by omega)]; omega]
        simp [hi, hir]
      · rw [show (i + w - r) % w = i - r by
            rw [show i + w - r = (i - r) + w by omega, Nat.add_mod_right,
              Nat.mod_eq_of_lt (by omega)]]
        rw [BitVec.getLsbD_of_ge x (w - r + i) (by omega)]
        simp [hi, hir]
    · rw [BitVec.getLsbD_of_ge x (w - r + i) (by omega)]
      simp [hi]

/-- A right rotation is the left rotation by the rest of the word (R391). -/
theorem rotr_eq_rotl {w r : Nat} (x : BitVec w) (h0 : 0 < r) (hr : r < w) :
    rotr x r = rotl x (w - r) := by
  rw [rotr, rotl, if_neg (by omega), if_neg (by omega), BitVec.or_comm]
  rw [show w - (w - r) = r by omega]

/-- A concatenation as a number. -/
theorem natLE_append (a b : Bytes) : natLE (a ++ b) = natLE a + 256 ^ a.length * natLE b := by
  induction a with
  | nil => simp [natLE]
  | cons x a ih => simp [natLE, ih, Nat.pow_succ]; grind

@[simp] theorem natLE_zeros (n : Nat) : natLE (zeros n) = 0 := by
  induction n with
  | zero => rfl
  | succ n ih =>
    have h : natLE (List.replicate n 0#8) = 0 := ih
    simp [zeros, List.replicate_succ, natLE, h]

/-- Reading a whole string of the word's size. -/
theorem readLE_whole {w : Nat} {bs : Bytes} (h : bs.length = w / 8) :
    readLE w bs 0 = BitVec.ofNat w (natLE bs) := by
  unfold readLE
  rw [← h, slice_all]

/-- `rotl_N` is Lean's rotation to the left. -/
theorem rotl_eq_rotateLeft {w r : Nat} (x : BitVec w) (hr : r < w) : rotl x r = x.rotateLeft r := by
  unfold rotl BitVec.rotateLeft BitVec.rotateLeftAux
  rw [Nat.mod_eq_of_lt hr]
  split
  · subst_vars
    apply BitVec.eq_of_getLsbD_eq
    intro i hi
    simp
  · rfl

/-- `rotr_N` is Lean's rotation to the right. -/
theorem rotr_eq_rotateRight {w r : Nat} (x : BitVec w) (hr : r < w) : rotr x r = x.rotateRight r := by
  unfold rotr BitVec.rotateRight BitVec.rotateRightAux
  rw [Nat.mod_eq_of_lt hr]
  split
  · subst_vars; simp
  · rfl

/-- One more block of a string of whole blocks. -/
theorem blocks_append (B : Nat) (P blk : Bytes) (n : Nat) (h : P.length = n * B) (hb : blk.length = B) :
    blocks B (n + 1) (P ++ blk) = blocks B n P ++ [blk] := by
  induction n generalizing P with
  | zero =>
    have : P = [] := List.eq_nil_of_length_eq_zero (by simpa using h)
    subst this
    simp [blocks, ← hb]
  | succ n ih =>
    have hP : B ≤ P.length := by rw [h, Nat.succ_mul]; omega
    rw [blocks, List.take_append_of_le_length hP, List.drop_append_of_le_length hP,
      ih _ (by rw [List.length_drop, h, Nat.succ_mul]; omega), blocks]
    rfl

end Sys2Proof.Machine
end

