-- ==== Sys2Proof/Laws/Decode.lean ====
section
/-! SUPPORT. The words of a descriptor and the fields of its control word, once for every later proof
(30_encoding.md R100 to R102). -/

namespace Sys2Proof.Machine

/-- The four bytes of a word, least significant first, written with bit ranges. -/
theorem bytesLE_word (w : Word) :
    bytesLE w = [w.extractLsb' 0 8, w.extractLsb' 8 8, w.extractLsb' 16 8, w.extractLsb' 24 8] := by
  have e : ∀ (k : Nat), w.extractLsb' (8 * k) 8 = BitVec.ofNat 8 (w.toNat / 256 ^ k) := fun k => by
    apply BitVec.eq_of_toNat_eq
    simp [Nat.shiftRight_eq_div_pow, Nat.pow_mul]
  have e0 := e 0
  have e1 := e 1
  have e2 := e 2
  have e3 := e 3
  simp only [Nat.reduceMul] at e0 e1 e2 e3
  rw [e0, e1, e2, e3]
  simp [bytesLE, natBytesLE, Nat.div_div_eq_div_mul]

/-- The `i`-th four bytes of a list of words. -/
theorem slice_words (ws : List Word) (i : Nat) (h : i < ws.length) :
    slice (ws.flatMap bytesLE) (4 * i) 4 = bytesLE ws[i] := by
  induction ws generalizing i with
  | nil => simp at h
  | cons w ws ih =>
    cases i with
    | zero => simp [slice]
    | succ n =>
      simp only [List.flatMap_cons, slice]
      rw [show 4 * (n + 1) = (bytesLE w).length + 4 * n by simp; omega, ← List.drop_drop, List.drop_left]
      exact ih n (by simpa using h)

/-- Word `Wi` of a descriptor written as a list of words. -/
theorem descWord_words (ws : List Word) (i : Nat) (h : i < ws.length) :
    descWord (ws.flatMap bytesLE) i = ws[i] := by
  have h1 : readLE 32 (bytesLE ws[i]) 0 = ws[i] := readLE_bytesLE (by decide) _
  rw [← h1]
  simp only [descWord, readLE]
  rw [show 32 / 8 = 4 from rfl, slice_words ws i h]
  rw [show (4 : Nat) = (bytesLE ws[i]).length by simp, slice_all]

/-- Word `Wi` of a descriptor has the descriptor's bytes. -/
theorem bytesLE_descWord (d : Bytes) (i : Nat) (h : 4 * i + 4 ≤ d.length) :
    bytesLE (descWord d i) = slice d (4 * i) 4 := by
  have hl : (slice d (4 * i) 4).length = 4 := by simp [slice]; omega
  have := bytesLE_readLE (w := 32) (by decide) (bs := slice d (4 * i) 4) hl
  rw [show readLE 32 (slice d (4 * i) 4) 0 = descWord d i by
    simp only [descWord, readLE]
    rw [show (32 / 8 : Nat) = (slice d (4 * i) 4).length by rw [hl], slice_all, hl]] at this
  exact this

/-- The five fields of a control word put together from them (R101). -/
theorem extract_fields (k p : BitVec 8) (c : BitVec 3) (a : BitVec 5) (op : BitVec 8) :
    (k ++ p ++ c ++ a ++ op).extractLsb' 0 8 = op ∧ (k ++ p ++ c ++ a ++ op).extractLsb' 8 5 = a ∧
    (k ++ p ++ c ++ a ++ op).extractLsb' 13 3 = c ∧ (k ++ p ++ c ++ a ++ op).extractLsb' 16 8 = p ∧
    (k ++ p ++ c ++ a ++ op).extractLsb' 24 8 = k := by
  refine ⟨?_, ?_, ?_, ?_, ?_⟩ <;>
  · apply BitVec.eq_of_getLsbD_eq
    intro i hi
    simp only [BitVec.getLsbD_extractLsb', BitVec.getLsbD_append, hi, decide_true, Bool.true_and]
    repeat' split
    all_goals first | omega | (congr 1; omega)

/-- A control word is its five fields (R101). -/
theorem append_fields (w : Word) :
    w.extractLsb' 24 8 ++ w.extractLsb' 16 8 ++ w.extractLsb' 13 3 ++ w.extractLsb' 8 5 ++
      w.extractLsb' 0 8 = w := by
  apply BitVec.eq_of_getLsbD_eq
  intro i hi
  simp only [BitVec.getLsbD_extractLsb', BitVec.getLsbD_append]
  repeat' split
  all_goals first
    | omega
    | (rw [decide_eq_true (by omega), Bool.true_and]; congr 1; omega)

/-- Shifting fields into a word that holds only OP and ALG puts them above those two (R101). -/
theorem or_fields (k p : BitVec 8) (c : BitVec 3) (w : Word) (hw : w.toNat < 2 ^ 13) :
    w ||| (c.setWidth 32 <<< 13) ||| (p.setWidth 32 <<< 16) ||| (k.setWidth 32 <<< 24) =
      k ++ p ++ c ++ w.extractLsb' 8 5 ++ w.extractLsb' 0 8 := by
  have hz : ∀ j, 13 ≤ j → w.getLsbD j = false := fun j h =>
    Nat.testBit_lt_two_pow (Nat.lt_of_lt_of_le hw (Nat.pow_le_pow_right (by decide) h))
  have hc : ∀ j, 3 ≤ j → c.getLsbD j = false := fun j h => BitVec.getLsbD_of_ge _ _ h
  have hp : ∀ j, 8 ≤ j → p.getLsbD j = false := fun j h => BitVec.getLsbD_of_ge _ _ h
  apply BitVec.eq_of_getLsbD_eq
  intro i hi
  simp only [BitVec.getLsbD_append, BitVec.getLsbD_or, BitVec.getLsbD_shiftLeft,
    BitVec.getLsbD_setWidth, BitVec.getLsbD_extractLsb']
  grind

/-- The operation a code names has that code (R104). -/
theorem opCode_of_opOfCode {c : BitVec 8} {op : Op} (h : opOfCode c = some op) : opCode op = c := by
  simpa using List.find?_some h

/-- The algorithm a code names has that code (R105). -/
theorem algCode_of_algOfCode {c : BitVec 5} {a : Alg} (h : algOfCode c = some a) : algCode a = c := by
  simpa using List.find?_some h

end Sys2Proof.Machine
end

