-- ==== Sys2Proof/Laws/Memory.lean ====
section
/-! SUPPORT. The laws of DMEM: a read after a write, the frame of a write, and that every memory operation
keeps the canonical form and the bound on addresses. -/

namespace Sys2Proof.Machine

/-- Every listed address is above `a`. -/
abbrev Memory.above (a : Nat) (m : Memory) : Prop := ∀ c ∈ m, a < c.1

/-- Every listed address is below `n`. -/
abbrev Memory.below (n : Nat) (m : Memory) : Prop := ∀ c ∈ m, c.1 < n

theorem Memory.wf_cons (x : Nat) (b : Byte) (m : Memory) :
    Memory.wf ((x, b) :: m) = true ↔ b ≠ Config.dmemInit ∧ Memory.above x m ∧ Memory.wf m = true := by
  simp [Memory.wf, and_assoc]

/-- An address below every listed one reads as the unlisted byte. -/
theorem Memory.read_above {a : Nat} {m : Memory} (h : Memory.above a m) :
    Memory.read m a = Config.dmemInit := by
  induction m with
  | nil => rfl
  | cons c m ih =>
    have h1 := h c (by simp)
    rw [Memory.read, if_neg (by omega)]
    exact ih fun d hd => h d (by simp [hd])

theorem Memory.read_cons_same {a : Nat} {b : Byte} {m : Memory} (h : Memory.above a m) :
    Memory.read (Memory.cons a b m) a = b := by
  unfold Memory.cons
  split
  · subst b; exact Memory.read_above h
  · simp [Memory.read]

theorem Memory.read_cons_ne {a x : Nat} (b : Byte) (m : Memory) (h : x ≠ a) :
    Memory.read (Memory.cons a b m) x = Memory.read m x := by
  unfold Memory.cons
  split
  · rfl
  · simp [Memory.read, h]

/-- A read after a write to the same address gives the value written. -/
theorem Memory.read_write_same (m : Memory) (a : Nat) (b : Byte) (h : Memory.wf m = true) :
    Memory.read (Memory.write m a b) a = b := by
  induction m with
  | nil => exact Memory.read_cons_same (by simp)
  | cons c m ih =>
    obtain ⟨x, d⟩ := c
    obtain ⟨_, hab, hwf⟩ := (Memory.wf_cons x d m).1 h
    rw [Memory.write]
    split
    · next hlt =>
      refine Memory.read_cons_same fun c hc => ?_
      rcases List.mem_cons.1 hc with rfl | hc
      · exact hlt
      · exact Nat.lt_trans hlt (hab c hc)
    · split
      · next heq => subst heq; exact Memory.read_cons_same hab
      · next hne => rw [Memory.read, if_neg hne]; exact ih hwf

/-- A write leaves every other address alone. -/
theorem Memory.read_write_ne (m : Memory) {a x : Nat} (b : Byte) (h : x ≠ a) :
    Memory.read (Memory.write m a b) x = Memory.read m x := by
  induction m with
  | nil => exact Memory.read_cons_ne b [] h
  | cons c m ih =>
    obtain ⟨y, d⟩ := c
    rw [Memory.write]
    split
    · exact Memory.read_cons_ne b _ h
    · split
      · next heq => subst heq; rw [Memory.read_cons_ne b m h, Memory.read, if_neg h]
      · simp only [Memory.read, ih]

theorem Memory.above_cons {a x : Nat} {b : Byte} {m : Memory} (h : a < x) (hm : Memory.above a m) :
    Memory.above a (Memory.cons x b m) := by
  unfold Memory.cons
  split
  · exact hm
  · intro c hc
    rcases List.mem_cons.1 hc with rfl | hc
    · exact h
    · exact hm c hc

theorem Memory.above_write {y a : Nat} {b : Byte} {m : Memory} (h : y < a) (hm : Memory.above y m) :
    Memory.above y (Memory.write m a b) := by
  induction m with
  | nil => exact Memory.above_cons h hm
  | cons c m ih =>
    obtain ⟨x, d⟩ := c
    have hx : y < x := hm (x, d) (by simp)
    have hm' : Memory.above y m := fun c hc => hm c (by simp [hc])
    rw [Memory.write]
    split
    · exact Memory.above_cons h hm
    · split
      · exact Memory.above_cons h hm'
      · intro c hc
        rcases List.mem_cons.1 hc with rfl | hc
        · exact hx
        · exact ih hm' c hc

theorem Memory.wf_cons_op {a : Nat} {b : Byte} {m : Memory} (h : Memory.above a m)
    (hm : Memory.wf m = true) : Memory.wf (Memory.cons a b m) = true := by
  unfold Memory.cons
  split
  · exact hm
  · next hb => exact (Memory.wf_cons a b m).2 ⟨hb, h, hm⟩

/-- A write keeps the canonical form. -/
theorem Memory.wf_write (m : Memory) (a : Nat) (b : Byte) (h : Memory.wf m = true) :
    Memory.wf (Memory.write m a b) = true := by
  induction m with
  | nil => exact Memory.wf_cons_op (by simp) rfl
  | cons c m ih =>
    obtain ⟨x, d⟩ := c
    obtain ⟨hd, hab, hwf⟩ := (Memory.wf_cons x d m).1 h
    rw [Memory.write]
    split
    · next hlt =>
      refine Memory.wf_cons_op (fun c hc => ?_) h
      rcases List.mem_cons.1 hc with rfl | hc
      · exact hlt
      · exact Nat.lt_trans hlt (hab c hc)
    · next hge =>
      split
      · next heq => subst heq; exact Memory.wf_cons_op hab hwf
      · next hne =>
        exact (Memory.wf_cons _ _ _).2 ⟨hd, Memory.above_write (by omega) hab, ih hwf⟩

theorem Memory.below_cons {n a : Nat} {b : Byte} {m : Memory} (h : a < n) (hm : Memory.below n m) :
    Memory.below n (Memory.cons a b m) := by
  unfold Memory.cons
  split
  · exact hm
  · intro c hc
    rcases List.mem_cons.1 hc with rfl | hc
    · exact h
    · exact hm c hc

/-- A write below `n` keeps every listed address below `n`. -/
theorem Memory.below_write {n a : Nat} (b : Byte) {m : Memory} (h : a < n) (hm : Memory.below n m) :
    Memory.below n (Memory.write m a b) := by
  induction m with
  | nil => exact Memory.below_cons h hm
  | cons c m ih =>
    obtain ⟨x, d⟩ := c
    have hm' : Memory.below n m := fun c hc => hm c (by simp [hc])
    rw [Memory.write]
    split
    · exact Memory.below_cons h hm
    · split
      · exact Memory.below_cons h hm'
      · intro c hc
        rcases List.mem_cons.1 hc with rfl | hc
        · exact hm (x, d) (by simp)
        · exact ih hm' c hc

/-! ### Byte strings -/

@[simp] theorem Memory.length_readBytes (m : Memory) (a n : Nat) :
    (Memory.readBytes m a n).length = n := by
  induction n generalizing a with
  | zero => rfl
  | succ n ih => simp [Memory.readBytes, ih]

@[simp] theorem State.length_memRead (s : State) (a n : Nat) : (s.memRead a n).length = n :=
  Memory.length_readBytes _ _ _

/-- Byte `k` of a read is the byte at address `a + k` (R73). -/
theorem Memory.getElem_readBytes (m : Memory) (a n k : Nat) (h : k < (Memory.readBytes m a n).length) :
    (Memory.readBytes m a n)[k] = Memory.read m (a + k) := by
  induction n generalizing a k with
  | zero => simp at h
  | succ n ih =>
    cases k with
    | zero => simp [Memory.readBytes]
    | succ k =>
      simp only [Memory.readBytes, List.getElem_cons_succ]
      rw [ih]
      congr 1
      omega

theorem Memory.readBytes_congr {m m' : Memory} {a n : Nat}
    (h : ∀ x, a ≤ x → x < a + n → Memory.read m x = Memory.read m' x) :
    Memory.readBytes m a n = Memory.readBytes m' a n := by
  induction n generalizing a with
  | zero => rfl
  | succ n ih =>
    simp only [Memory.readBytes]
    rw [h a (by omega) (by omega), ih fun x h1 h2 => h x (by omega) (by omega)]

/-- A write of a byte string leaves every address outside it alone (R83). -/
theorem Memory.read_writeBytes_out (m : Memory) (a : Nat) (bs : Bytes) {x : Nat}
    (h : x < a ∨ a + bs.length ≤ x) :
    Memory.read (Memory.writeBytes m a bs) x = Memory.read m x := by
  induction bs generalizing m a with
  | nil => rfl
  | cons b bs ih =>
    simp only [List.length_cons] at h
    rw [Memory.writeBytes, ih _ _ (by omega), Memory.read_write_ne _ _ (by omega)]

theorem Memory.wf_writeBytes (m : Memory) (a : Nat) (bs : Bytes) (h : Memory.wf m = true) :
    Memory.wf (Memory.writeBytes m a bs) = true := by
  induction bs generalizing m a with
  | nil => exact h
  | cons b bs ih => exact ih _ _ (Memory.wf_write _ _ _ h)

theorem Memory.below_writeBytes {n a : Nat} {m : Memory} (bs : Bytes) (h : a + bs.length ≤ n)
    (hm : Memory.below n m) : Memory.below n (Memory.writeBytes m a bs) := by
  induction bs generalizing m a with
  | nil => exact hm
  | cons b bs ih =>
    simp only [List.length_cons] at h
    exact ih (by omega) (Memory.below_write b (by omega) hm)

/-- A read after a write of the same byte string gives it back (R73, R74). -/
theorem Memory.readBytes_writeBytes (m : Memory) (a : Nat) (bs : Bytes) (h : Memory.wf m = true) :
    Memory.readBytes (Memory.writeBytes m a bs) a bs.length = bs := by
  induction bs generalizing m a with
  | nil => rfl
  | cons b bs ih =>
    simp only [Memory.writeBytes, List.length_cons, Memory.readBytes]
    rw [ih _ _ (Memory.wf_write _ _ _ h), Memory.read_writeBytes_out _ _ _ (by omega),
      Memory.read_write_same _ _ _ h]

/-! ### The optional store of a command, and the draws of free bytes -/

theorem Memory.wf_storeOpt (m : Memory) (st : Option (Nat × Bytes)) (h : Memory.wf m = true) :
    Memory.wf (Memory.storeOpt m st) = true := by
  cases st with
  | none => exact h
  | some p => exact Memory.wf_writeBytes _ _ _ h

theorem Memory.wf_drawAll (m : Memory) (n : Nat) (as : List Nat) (h : Memory.wf m = true) :
    Memory.wf (Memory.drawAll m n as) = true := by
  unfold Memory.drawAll
  induction as generalizing m with
  | nil => exact h
  | cons a as ih => exact ih _ (Memory.wf_write _ _ _ h)

theorem Memory.below_drawAll {k : Nat} {m : Memory} (n : Nat) {as : List Nat} (h : ∀ a ∈ as, a < k)
    (hm : Memory.below k m) : Memory.below k (Memory.drawAll m n as) := by
  unfold Memory.drawAll
  induction as generalizing m with
  | nil => exact hm
  | cons a as ih =>
    exact ih (fun b hb => h b (by simp [hb])) (Memory.below_write _ (h a (by simp)) hm)

/-- A draw leaves every address outside its list alone. -/
theorem Memory.read_drawAll_out (m : Memory) (n : Nat) (as : List Nat) {x : Nat} (h : x ∉ as) :
    Memory.read (Memory.drawAll m n as) x = Memory.read m x := by
  unfold Memory.drawAll
  induction as generalizing m with
  | nil => rfl
  | cons a as ih =>
    simp only [List.mem_cons, not_or] at h
    rw [List.foldl_cons, ih _ h.2, Memory.read_write_ne _ _ h.1]

@[simp] theorem mem_addrRange {a n x : Nat} : x ∈ addrRange a n ↔ a ≤ x ∧ x < a + n := by
  simp only [addrRange, List.mem_map, List.mem_range]
  constructor
  · rintro ⟨k, hk, rfl⟩; omega
  · intro h; exact ⟨x - a, by omega, by omega⟩

/-- The range check on a non-empty range (R82). -/
theorem State.inRange_pos {s : State} {a n : Nat} (hn : 0 < n) :
    s.inRange a n = true ↔ a + n ≤ s.memSize := by
  simp [State.inRange]; omega

end Sys2Proof.Machine
end

