-- ==== Sys2Proof/Laws/State.lean ====
section
/-! SUPPORT. One lemma per field per update of the state, so that no proof unfolds a record update. -/

namespace Sys2Proof.Machine

/-! ### `raiseFault` -/

@[simp] theorem raiseFault_memSize (s : State) (e : ErrCode) : (s.raiseFault e).memSize = s.memSize := rfl
@[simp] theorem raiseFault_dmem (s : State) (e : ErrCode) : (s.raiseFault e).dmem = s.dmem := rfl
@[simp] theorem raiseFault_irqEn (s : State) (e : ErrCode) : (s.raiseFault e).irqEn = s.irqEn := rfl
@[simp] theorem raiseFault_busy (s : State) (e : ErrCode) : (s.raiseFault e).busy = false := rfl
@[simp] theorem raiseFault_done (s : State) (e : ErrCode) : (s.raiseFault e).done = s.done := rfl
@[simp] theorem raiseFault_err (s : State) (e : ErrCode) : (s.raiseFault e).err = true := rfl
@[simp] theorem raiseFault_matched (s : State) (e : ErrCode) : (s.raiseFault e).matched = s.matched := rfl
@[simp] theorem raiseFault_errCode (s : State) (e : ErrCode) : (s.raiseFault e).errCode = errNumber e := rfl
@[simp] theorem raiseFault_cmdPtr (s : State) (e : ErrCode) : (s.raiseFault e).cmdPtr = s.cmdPtr := rfl
@[simp] theorem raiseFault_errPtr (s : State) (e : ErrCode) : (s.raiseFault e).errPtr = s.cmdPtr := rfl
@[simp] theorem raiseFault_abortPend (s : State) (e : ErrCode) : (s.raiseFault e).abortPend = false := rfl
@[simp] theorem raiseFault_slots (s : State) (e : ErrCode) : (s.raiseFault e).slots = s.slots := rfl
@[simp] theorem raiseFault_spoiled (s : State) (e : ErrCode) : (s.raiseFault e).spoiled = s.spoiled := rfl
@[simp] theorem raiseFault_draws (s : State) (e : ErrCode) : (s.raiseFault e).draws = s.draws := rfl
@[simp] theorem raiseFault_polls (s : State) (e : ErrCode) : (s.raiseFault e).polls = s.polls := rfl

/-! ### `start` -/

@[simp] theorem start_memSize (s : State) : (s.start).memSize = s.memSize := rfl
@[simp] theorem start_dmem (s : State) : (s.start).dmem = s.dmem := rfl
@[simp] theorem start_irqEn (s : State) : (s.start).irqEn = s.irqEn := rfl
@[simp] theorem start_busy (s : State) : (s.start).busy = true := rfl
@[simp] theorem start_done (s : State) : (s.start).done = false := rfl
@[simp] theorem start_err (s : State) : (s.start).err = false := rfl
@[simp] theorem start_matched (s : State) : (s.start).matched = s.matched := rfl
@[simp] theorem start_errCode (s : State) : (s.start).errCode = 0 := rfl
@[simp] theorem start_cmdPtr (s : State) : (s.start).cmdPtr = s.cmdPtr := rfl
@[simp] theorem start_errPtr (s : State) : (s.start).errPtr = s.errPtr := rfl
@[simp] theorem start_abortPend (s : State) : (s.start).abortPend = s.abortPend := rfl
@[simp] theorem start_slots (s : State) : (s.start).slots = s.slots := rfl
@[simp] theorem start_spoiled (s : State) : (s.start).spoiled = s.spoiled := rfl
@[simp] theorem start_draws (s : State) : (s.start).draws = s.draws := rfl
@[simp] theorem start_polls (s : State) : (s.start).polls = s.polls := rfl

/-! ### `commit` -/

@[simp] theorem commit_memSize (s : State) (e : Effect) : (s.commit e).memSize = s.memSize := rfl
@[simp] theorem commit_dmem (s : State) (e : Effect) : (s.commit e).dmem = Memory.storeOpt s.dmem e.store := rfl
@[simp] theorem commit_irqEn (s : State) (e : Effect) : (s.commit e).irqEn = s.irqEn := rfl
@[simp] theorem commit_busy (s : State) (e : Effect) : (s.commit e).busy = (if e.stop then false else s.busy) := rfl
@[simp] theorem commit_done (s : State) (e : Effect) : (s.commit e).done = (if e.stop then true else s.done) := rfl
@[simp] theorem commit_err (s : State) (e : Effect) : (s.commit e).err = s.err := rfl
@[simp] theorem commit_matched (s : State) (e : Effect) : (s.commit e).matched = e.flag.getD s.matched := rfl
@[simp] theorem commit_errCode (s : State) (e : Effect) : (s.commit e).errCode = s.errCode := rfl
@[simp] theorem commit_cmdPtr (s : State) (e : Effect) : (s.commit e).cmdPtr = e.target.getD s.nextPtr := rfl
@[simp] theorem commit_errPtr (s : State) (e : Effect) : (s.commit e).errPtr = s.errPtr := rfl
@[simp] theorem commit_abortPend (s : State) (e : Effect) : (s.commit e).abortPend = (if e.stop then false else s.abortPend) := rfl
@[simp] theorem commit_slots (s : State) (e : Effect) : (s.commit e).slots = slotsAfter s.slots e.slot := rfl
@[simp] theorem commit_spoiled (s : State) (e : Effect) : (s.commit e).spoiled = s.spoiled := rfl
@[simp] theorem commit_draws (s : State) (e : Effect) : (s.commit e).draws = s.draws := rfl
@[simp] theorem commit_polls (s : State) (e : Effect) : (s.commit e).polls = s.polls := rfl

/-! ### `setSlot` -/

@[simp] theorem setSlot_memSize (s : State) (c : BitVec 3) (v : Slot) : (s.setSlot c v).memSize = s.memSize := rfl
@[simp] theorem setSlot_dmem (s : State) (c : BitVec 3) (v : Slot) : (s.setSlot c v).dmem = s.dmem := rfl
@[simp] theorem setSlot_irqEn (s : State) (c : BitVec 3) (v : Slot) : (s.setSlot c v).irqEn = s.irqEn := rfl
@[simp] theorem setSlot_busy (s : State) (c : BitVec 3) (v : Slot) : (s.setSlot c v).busy = s.busy := rfl
@[simp] theorem setSlot_done (s : State) (c : BitVec 3) (v : Slot) : (s.setSlot c v).done = s.done := rfl
@[simp] theorem setSlot_err (s : State) (c : BitVec 3) (v : Slot) : (s.setSlot c v).err = s.err := rfl
@[simp] theorem setSlot_matched (s : State) (c : BitVec 3) (v : Slot) : (s.setSlot c v).matched = s.matched := rfl
@[simp] theorem setSlot_errCode (s : State) (c : BitVec 3) (v : Slot) : (s.setSlot c v).errCode = s.errCode := rfl
@[simp] theorem setSlot_cmdPtr (s : State) (c : BitVec 3) (v : Slot) : (s.setSlot c v).cmdPtr = s.cmdPtr := rfl
@[simp] theorem setSlot_errPtr (s : State) (c : BitVec 3) (v : Slot) : (s.setSlot c v).errPtr = s.errPtr := rfl
@[simp] theorem setSlot_abortPend (s : State) (c : BitVec 3) (v : Slot) : (s.setSlot c v).abortPend = s.abortPend := rfl
@[simp] theorem setSlot_slots (s : State) (c : BitVec 3) (v : Slot) : (s.setSlot c v).slots = s.slots.set c.toNat v c.isLt := rfl
@[simp] theorem setSlot_spoiled (s : State) (c : BitVec 3) (v : Slot) : (s.setSlot c v).spoiled = s.spoiled := rfl
@[simp] theorem setSlot_draws (s : State) (c : BitVec 3) (v : Slot) : (s.setSlot c v).draws = s.draws := rfl
@[simp] theorem setSlot_polls (s : State) (c : BitVec 3) (v : Slot) : (s.setSlot c v).polls = s.polls := rfl

/-! ### `hostStore` -/

@[simp] theorem hostStore_memSize (s : State) (a : Nat) (bs : Bytes) : (s.hostStore a bs).memSize = s.memSize := rfl
@[simp] theorem hostStore_dmem (s : State) (a : Nat) (bs : Bytes) : (s.hostStore a bs).dmem = Memory.writeBytes s.dmem a bs := rfl
@[simp] theorem hostStore_irqEn (s : State) (a : Nat) (bs : Bytes) : (s.hostStore a bs).irqEn = s.irqEn := rfl
@[simp] theorem hostStore_busy (s : State) (a : Nat) (bs : Bytes) : (s.hostStore a bs).busy = s.busy := rfl
@[simp] theorem hostStore_done (s : State) (a : Nat) (bs : Bytes) : (s.hostStore a bs).done = s.done := rfl
@[simp] theorem hostStore_err (s : State) (a : Nat) (bs : Bytes) : (s.hostStore a bs).err = s.err := rfl
@[simp] theorem hostStore_matched (s : State) (a : Nat) (bs : Bytes) : (s.hostStore a bs).matched = s.matched := rfl
@[simp] theorem hostStore_errCode (s : State) (a : Nat) (bs : Bytes) : (s.hostStore a bs).errCode = s.errCode := rfl
@[simp] theorem hostStore_cmdPtr (s : State) (a : Nat) (bs : Bytes) : (s.hostStore a bs).cmdPtr = s.cmdPtr := rfl
@[simp] theorem hostStore_errPtr (s : State) (a : Nat) (bs : Bytes) : (s.hostStore a bs).errPtr = s.errPtr := rfl
@[simp] theorem hostStore_abortPend (s : State) (a : Nat) (bs : Bytes) : (s.hostStore a bs).abortPend = s.abortPend := rfl
@[simp] theorem hostStore_slots (s : State) (a : Nat) (bs : Bytes) : (s.hostStore a bs).slots = s.slots := rfl
@[simp] theorem hostStore_spoiled (s : State) (a : Nat) (bs : Bytes) : (s.hostStore a bs).spoiled = (s.spoiled.filter fun x => !(a ≤ x && x < a + bs.length)) := rfl
@[simp] theorem hostStore_draws (s : State) (a : Nat) (bs : Bytes) : (s.hostStore a bs).draws = s.draws := rfl
@[simp] theorem hostStore_polls (s : State) (a : Nat) (bs : Bytes) : (s.hostStore a bs).polls = s.polls := rfl

/-! ### Power-on -/

@[simp] theorem poweredOn_memSize (size : Nat) (init : Memory) :
    (State.poweredOn size init).memSize = size := rfl
@[simp] theorem poweredOn_dmem (size : Nat) (init : Memory) :
    (State.poweredOn size init).dmem = init := rfl
@[simp] theorem poweredOn_irqEn (size : Nat) (init : Memory) :
    (State.poweredOn size init).irqEn = false := rfl
@[simp] theorem poweredOn_busy (size : Nat) (init : Memory) :
    (State.poweredOn size init).busy = false := rfl
@[simp] theorem poweredOn_done (size : Nat) (init : Memory) :
    (State.poweredOn size init).done = false := rfl
@[simp] theorem poweredOn_err (size : Nat) (init : Memory) :
    (State.poweredOn size init).err = false := rfl
@[simp] theorem poweredOn_matched (size : Nat) (init : Memory) :
    (State.poweredOn size init).matched = false := rfl
@[simp] theorem poweredOn_errCode (size : Nat) (init : Memory) :
    (State.poweredOn size init).errCode = 0 := rfl
@[simp] theorem poweredOn_cmdPtr (size : Nat) (init : Memory) :
    (State.poweredOn size init).cmdPtr = 0 := rfl
@[simp] theorem poweredOn_errPtr (size : Nat) (init : Memory) :
    (State.poweredOn size init).errPtr = 0 := rfl
@[simp] theorem poweredOn_abortPend (size : Nat) (init : Memory) :
    (State.poweredOn size init).abortPend = false := rfl
@[simp] theorem poweredOn_slots (size : Nat) (init : Memory) :
    (State.poweredOn size init).slots = Vector.replicate Config.nctx Slot.reset := rfl
@[simp] theorem poweredOn_spoiled (size : Nat) (init : Memory) :
    (State.poweredOn size init).spoiled = [] := rfl
@[simp] theorem poweredOn_draws (size : Nat) (init : Memory) :
    (State.poweredOn size init).draws = 0 := rfl
@[simp] theorem poweredOn_polls (size : Nat) (init : Memory) :
    (State.poweredOn size init).polls = 0 := rfl

/-! ### `writeCtrl`, `writeStatus`, `writeCmdPtr` -/

@[simp] theorem writeCtrl_memSize (s : State) (v : Word) :
    (s.writeCtrl v).memSize = s.memSize := by
  unfold State.writeCtrl; split <;> split <;> simp_all
@[simp] theorem writeCtrl_dmem (s : State) (v : Word) :
    (s.writeCtrl v).dmem = s.dmem := by
  unfold State.writeCtrl; split <;> split <;> simp_all
@[simp] theorem writeCtrl_irqEn (s : State) (v : Word) :
    (s.writeCtrl v).irqEn = v.getLsbD 2 := by
  unfold State.writeCtrl; split <;> split <;> simp_all
@[simp] theorem writeCtrl_busy (s : State) (v : Word) :
    (s.writeCtrl v).busy = (s.busy || v.getLsbD 0) := by
  unfold State.writeCtrl; split <;> split <;> simp_all
@[simp] theorem writeCtrl_done (s : State) (v : Word) :
    (s.writeCtrl v).done = (s.done && (s.busy || !v.getLsbD 0)) := by
  unfold State.writeCtrl; split <;> split <;> simp_all
@[simp] theorem writeCtrl_err (s : State) (v : Word) :
    (s.writeCtrl v).err = (s.err && (s.busy || !v.getLsbD 0)) := by
  unfold State.writeCtrl; split <;> split <;> simp_all
@[simp] theorem writeCtrl_matched (s : State) (v : Word) :
    (s.writeCtrl v).matched = s.matched := by
  unfold State.writeCtrl; split <;> split <;> simp_all
@[simp] theorem writeCtrl_errCode (s : State) (v : Word) :
    (s.writeCtrl v).errCode = (if !s.busy && v.getLsbD 0 then 0 else s.errCode) := by
  unfold State.writeCtrl; split <;> split <;> simp_all
@[simp] theorem writeCtrl_cmdPtr (s : State) (v : Word) :
    (s.writeCtrl v).cmdPtr = s.cmdPtr := by
  unfold State.writeCtrl; split <;> split <;> simp_all
@[simp] theorem writeCtrl_errPtr (s : State) (v : Word) :
    (s.writeCtrl v).errPtr = s.errPtr := by
  unfold State.writeCtrl; split <;> split <;> simp_all
@[simp] theorem writeCtrl_abortPend (s : State) (v : Word) :
    (s.writeCtrl v).abortPend = (s.abortPend || (s.busy && v.getLsbD 1)) := by
  unfold State.writeCtrl; split <;> split <;> simp_all
@[simp] theorem writeCtrl_slots (s : State) (v : Word) :
    (s.writeCtrl v).slots = s.slots := by
  unfold State.writeCtrl; split <;> split <;> simp_all
@[simp] theorem writeCtrl_spoiled (s : State) (v : Word) :
    (s.writeCtrl v).spoiled = s.spoiled := by
  unfold State.writeCtrl; split <;> split <;> simp_all
@[simp] theorem writeCtrl_draws (s : State) (v : Word) :
    (s.writeCtrl v).draws = s.draws := by
  unfold State.writeCtrl; split <;> split <;> simp_all
@[simp] theorem writeCtrl_polls (s : State) (v : Word) :
    (s.writeCtrl v).polls = s.polls := by
  unfold State.writeCtrl; split <;> split <;> simp_all
@[simp] theorem writeStatus_memSize (s : State) (v : Word) :
    (s.writeStatus v).memSize = s.memSize := by
  unfold State.writeStatus; split <;> split <;> simp_all
@[simp] theorem writeStatus_dmem (s : State) (v : Word) :
    (s.writeStatus v).dmem = s.dmem := by
  unfold State.writeStatus; split <;> split <;> simp_all
@[simp] theorem writeStatus_irqEn (s : State) (v : Word) :
    (s.writeStatus v).irqEn = s.irqEn := by
  unfold State.writeStatus; split <;> split <;> simp_all
@[simp] theorem writeStatus_busy (s : State) (v : Word) :
    (s.writeStatus v).busy = s.busy := by
  unfold State.writeStatus; split <;> split <;> simp_all
@[simp] theorem writeStatus_done (s : State) (v : Word) :
    (s.writeStatus v).done = (s.done && !v.getLsbD 1) := by
  unfold State.writeStatus; split <;> split <;> simp_all
@[simp] theorem writeStatus_err (s : State) (v : Word) :
    (s.writeStatus v).err = (s.err && !v.getLsbD 2) := by
  unfold State.writeStatus; split <;> split <;> simp_all
@[simp] theorem writeStatus_matched (s : State) (v : Word) :
    (s.writeStatus v).matched = s.matched := by
  unfold State.writeStatus; split <;> split <;> simp_all
@[simp] theorem writeStatus_errCode (s : State) (v : Word) :
    (s.writeStatus v).errCode = (if v.getLsbD 2 then 0 else s.errCode) := by
  unfold State.writeStatus; split <;> split <;> simp_all
@[simp] theorem writeStatus_cmdPtr (s : State) (v : Word) :
    (s.writeStatus v).cmdPtr = s.cmdPtr := by
  unfold State.writeStatus; split <;> split <;> simp_all
@[simp] theorem writeStatus_errPtr (s : State) (v : Word) :
    (s.writeStatus v).errPtr = s.errPtr := by
  unfold State.writeStatus; split <;> split <;> simp_all
@[simp] theorem writeStatus_abortPend (s : State) (v : Word) :
    (s.writeStatus v).abortPend = s.abortPend := by
  unfold State.writeStatus; split <;> split <;> simp_all
@[simp] theorem writeStatus_slots (s : State) (v : Word) :
    (s.writeStatus v).slots = s.slots := by
  unfold State.writeStatus; split <;> split <;> simp_all
@[simp] theorem writeStatus_spoiled (s : State) (v : Word) :
    (s.writeStatus v).spoiled = s.spoiled := by
  unfold State.writeStatus; split <;> split <;> simp_all
@[simp] theorem writeStatus_draws (s : State) (v : Word) :
    (s.writeStatus v).draws = s.draws := by
  unfold State.writeStatus; split <;> split <;> simp_all
@[simp] theorem writeStatus_polls (s : State) (v : Word) :
    (s.writeStatus v).polls = s.polls := by
  unfold State.writeStatus; split <;> split <;> simp_all
@[simp] theorem writeCmdPtr_memSize (s : State) (v : Word) :
    (s.writeCmdPtr v).memSize = s.memSize := by
  unfold State.writeCmdPtr; split <;> simp_all
@[simp] theorem writeCmdPtr_dmem (s : State) (v : Word) :
    (s.writeCmdPtr v).dmem = s.dmem := by
  unfold State.writeCmdPtr; split <;> simp_all
@[simp] theorem writeCmdPtr_irqEn (s : State) (v : Word) :
    (s.writeCmdPtr v).irqEn = s.irqEn := by
  unfold State.writeCmdPtr; split <;> simp_all
@[simp] theorem writeCmdPtr_busy (s : State) (v : Word) :
    (s.writeCmdPtr v).busy = s.busy := by
  unfold State.writeCmdPtr; split <;> simp_all
@[simp] theorem writeCmdPtr_done (s : State) (v : Word) :
    (s.writeCmdPtr v).done = s.done := by
  unfold State.writeCmdPtr; split <;> simp_all
@[simp] theorem writeCmdPtr_err (s : State) (v : Word) :
    (s.writeCmdPtr v).err = s.err := by
  unfold State.writeCmdPtr; split <;> simp_all
@[simp] theorem writeCmdPtr_matched (s : State) (v : Word) :
    (s.writeCmdPtr v).matched = s.matched := by
  unfold State.writeCmdPtr; split <;> simp_all
@[simp] theorem writeCmdPtr_errCode (s : State) (v : Word) :
    (s.writeCmdPtr v).errCode = s.errCode := by
  unfold State.writeCmdPtr; split <;> simp_all
@[simp] theorem writeCmdPtr_cmdPtr (s : State) (v : Word) :
    (s.writeCmdPtr v).cmdPtr = (if s.busy then s.cmdPtr else v) := by
  unfold State.writeCmdPtr; split <;> simp_all
@[simp] theorem writeCmdPtr_errPtr (s : State) (v : Word) :
    (s.writeCmdPtr v).errPtr = s.errPtr := by
  unfold State.writeCmdPtr; split <;> simp_all
@[simp] theorem writeCmdPtr_abortPend (s : State) (v : Word) :
    (s.writeCmdPtr v).abortPend = s.abortPend := by
  unfold State.writeCmdPtr; split <;> simp_all
@[simp] theorem writeCmdPtr_slots (s : State) (v : Word) :
    (s.writeCmdPtr v).slots = s.slots := by
  unfold State.writeCmdPtr; split <;> simp_all
@[simp] theorem writeCmdPtr_spoiled (s : State) (v : Word) :
    (s.writeCmdPtr v).spoiled = s.spoiled := by
  unfold State.writeCmdPtr; split <;> simp_all
@[simp] theorem writeCmdPtr_draws (s : State) (v : Word) :
    (s.writeCmdPtr v).draws = s.draws := by
  unfold State.writeCmdPtr; split <;> simp_all
@[simp] theorem writeCmdPtr_polls (s : State) (v : Word) :
    (s.writeCmdPtr v).polls = s.polls := by
  unfold State.writeCmdPtr; split <;> simp_all

/-! ### `settle`: only DMEM and the draw counter can change -/

@[simp] theorem settle_memSize (s : State) : s.settle.memSize = s.memSize := by
  unfold State.settle; split <;> rfl
@[simp] theorem settle_irqEn (s : State) : s.settle.irqEn = s.irqEn := by
  unfold State.settle; split <;> rfl
@[simp] theorem settle_busy (s : State) : s.settle.busy = s.busy := by
  unfold State.settle; split <;> rfl
@[simp] theorem settle_done (s : State) : s.settle.done = s.done := by
  unfold State.settle; split <;> rfl
@[simp] theorem settle_err (s : State) : s.settle.err = s.err := by
  unfold State.settle; split <;> rfl
@[simp] theorem settle_matched (s : State) : s.settle.matched = s.matched := by
  unfold State.settle; split <;> rfl
@[simp] theorem settle_errCode (s : State) : s.settle.errCode = s.errCode := by
  unfold State.settle; split <;> rfl
@[simp] theorem settle_cmdPtr (s : State) : s.settle.cmdPtr = s.cmdPtr := by
  unfold State.settle; split <;> rfl
@[simp] theorem settle_errPtr (s : State) : s.settle.errPtr = s.errPtr := by
  unfold State.settle; split <;> rfl
@[simp] theorem settle_abortPend (s : State) : s.settle.abortPend = s.abortPend := by
  unfold State.settle; split <;> rfl
@[simp] theorem settle_slots (s : State) : s.settle.slots = s.slots := by
  unfold State.settle; split <;> rfl
@[simp] theorem settle_spoiled (s : State) : s.settle.spoiled = s.spoiled := by
  unfold State.settle; split <;> rfl
@[simp] theorem settle_polls (s : State) : s.settle.polls = s.polls := by
  unfold State.settle; split <;> rfl

/-- With no spoiled byte nothing is drawn. -/
theorem settle_clean (s : State) (h : s.spoiled = []) : s.settle = s := by
  unfold State.settle; split <;> simp_all

/-- While idle a read of CMDPTR answers the pointer (R49). -/
theorem cmdPtrRead_idle {s : State} (h : s.busy = false) : s.cmdPtrRead = s.cmdPtr := by
  simp [State.cmdPtrRead, h]

/-- While busy it answers the pointer, or the pointer that the command in progress leaves, with an abort latched
as without (R492). -/
theorem cmdPtrRead_busy {s t : State} (ht : step { s with abortPend := false } = .next t) :
    s.cmdPtrRead = s.cmdPtr ∨ s.cmdPtrRead = t.cmdPtr := by
  simp only [State.cmdPtrRead, State.ptrAfter, ht]
  split
  · exact .inr rfl
  · exact .inl rfl

end Sys2Proof.Machine
end

