-- ==== Sys2Proof/Laws/Exec.lean ====
section
/-! SUPPORT. What a command and a step can do, said once: every command either commits one effect or takes one
fault (`exec_eq`, `exec_next`), and each shared operation answers exactly what its lemma here says. Later
proofs cite these and unfold neither `exec` nor a shared operation. -/

namespace Sys2Proof.Machine

/-- A command's effect, or the fault it raises. -/
def effectOf (i : Instr) (s : State) : Except ErrCode Effect :=
  match i with
  | .hashMd5 o => hashEffect .md5 o s
  | .hashSha1 o => hashEffect .sha1 o s
  | .hashSha256 o => hashEffect .sha256 o s
  | .hashSha384 o => hashEffect .sha384 o s
  | .hashBlake2b o => hashEffect .blake2b o s
  | .hashBlake3 o => hashEffect .blake3 o s
  | .hashSiphash o => hashEffect .siphash o s
  | .hashMurmur3_32 o => hashEffect .murmur3_32 o s
  | .hashMurmur3_128 o => hashEffect .murmur3_128 o s
  | .hashXxh32 o => hashEffect .xxh32 o s
  | .hashXxh64 o => hashEffect .xxh64 o s
  | .hashCity64 o => hashEffect .city64 o s
  | .hashCity128 o => hashEffect .city128 o s
  | .hashFarm64 o => hashEffect .farm64 o s
  | .verifyMd5 o => verifyEffect .md5 o s
  | .verifySha1 o => verifyEffect .sha1 o s
  | .verifySha256 o => verifyEffect .sha256 o s
  | .verifySha384 o => verifyEffect .sha384 o s
  | .verifyBlake2b o => verifyEffect .blake2b o s
  | .verifyBlake3 o => verifyEffect .blake3 o s
  | .initMd5 o => initEffect .md5 o s
  | .initSha1 o => initEffect .sha1 o s
  | .initSha256 o => initEffect .sha256 o s
  | .initSha384 o => initEffect .sha384 o s
  | .initBlake2b o => initEffect .blake2b o s
  | .initBlake3 o => initEffect .blake3 o s
  | .initSiphash o => initEffect .siphash o s
  | .initXxh32 o => initEffect .xxh32 o s
  | .initXxh64 o => initEffect .xxh64 o s
  | .updateMd5 o => updateEffect .md5 o s
  | .updateSha1 o => updateEffect .sha1 o s
  | .updateSha256 o => updateEffect .sha256 o s
  | .updateSha384 o => updateEffect .sha384 o s
  | .updateBlake2b o => updateEffect .blake2b o s
  | .updateBlake3 o => updateEffect .blake3 o s
  | .updateSiphash o => updateEffect .siphash o s
  | .updateXxh32 o => updateEffect .xxh32 o s
  | .updateXxh64 o => updateEffect .xxh64 o s
  | .finalMd5 o => finalEffect .md5 o s
  | .finalSha1 o => finalEffect .sha1 o s
  | .finalSha256 o => finalEffect .sha256 o s
  | .finalSha384 o => finalEffect .sha384 o s
  | .finalBlake2b o => finalEffect .blake2b o s
  | .finalBlake3 o => finalEffect .blake3 o s
  | .finalSiphash o => finalEffect .siphash o s
  | .finalXxh32 o => finalEffect .xxh32 o s
  | .finalXxh64 o => finalEffect .xxh64 o s
  | .rotl o => rotateEffect .rotl rotl o s
  | .rotr o => rotateEffect .rotr rotr o s
  | .bswap o => bswapEffect o s
  | .mul128 o => mul128Effect o s
  | .jump o => jumpEffect .jump true o
  | .jmatch o => jumpEffect .jmatch s.matched o
  | .jnmatch o => jumpEffect .jnmatch (!s.matched) o
  | .nop o => plainEffect .nop {} o
  | .stop o => plainEffect .stop { stop := true } o
/-- Every command ends by committing its effect or taking its fault. -/
theorem exec_eq (i : Instr) (s : State) : exec i s = s.finish (effectOf i s) := by
  cases i <;> rfl

/-- What a command can do (R432, R433). -/
theorem exec_next {i : Instr} {s t : State} (h : exec i s = .next t) :
    (∃ e, effectOf i s = .ok e ∧ t = s.commit e) ∨
      (∃ c, effectOf i s = .error c ∧ t = s.raiseFault c) := by
  rw [exec_eq] at h
  cases he : effectOf i s with
  | ok e => rw [he] at h; injection h with h; exact .inl ⟨e, rfl, h.symm⟩
  | error c => rw [he] at h; injection h with h; exact .inr ⟨c, rfl, h.symm⟩

theorem exec_of_ok {i : Instr} {s : State} {e : Effect} (h : effectOf i s = .ok e) :
    exec i s = .next (s.commit e) := by rw [exec_eq, h]; rfl

theorem exec_of_error {i : Instr} {s : State} {c : ErrCode} (h : effectOf i s = .error c) :
    exec i s = .next (s.raiseFault c) := by rw [exec_eq, h]; rfl

/-- A command always answers a next state. -/
theorem exec_total (i : Instr) (s : State) : ∃ t, exec i s = .next t := by
  rw [exec_eq]
  cases effectOf i s with
  | ok e => exact ⟨_, rfl⟩
  | error c => exact ⟨_, rfl⟩

/-! ### The commands by operation -/

/-- The effect of a hash operation's command. -/
theorem effectOf_hash {i : Instr} {a : Alg} (ho : i.op = .hash) (ha : i.alg = some a) (s : State) :
    effectOf i s = hashEffect a i.operands s := by
  cases i <;> first | (cases ho; cases ha; rfl) | cases ho

theorem effectOf_verify {i : Instr} {a : Alg} (ho : i.op = .verify) (ha : i.alg = some a) (s : State) :
    effectOf i s = verifyEffect a i.operands s := by
  cases i <;> first | (cases ho; cases ha; rfl) | cases ho

theorem effectOf_init {i : Instr} {a : Alg} (ho : i.op = .init) (ha : i.alg = some a) (s : State) :
    effectOf i s = initEffect a i.operands s := by
  cases i <;> first | (cases ho; cases ha; rfl) | cases ho

theorem effectOf_update {i : Instr} {a : Alg} (ho : i.op = .update) (ha : i.alg = some a) (s : State) :
    effectOf i s = updateEffect a i.operands s := by
  cases i <;> first | (cases ho; cases ha; rfl) | cases ho

theorem effectOf_final {i : Instr} {a : Alg} (ho : i.op = .final) (ha : i.alg = some a) (s : State) :
    effectOf i s = finalEffect a i.operands s := by
  cases i <;> first | (cases ho; cases ha; rfl) | cases ho

/-- `ofHash` gives a command of the operation, the algorithm and the fields it was given. -/
theorem ofHash_some {op : Op} {a : Alg} {o : Operands} {i : Instr} (h : Instr.ofHash op a o = some i) :
    i.op = op ∧ i.alg = some a ∧ i.operands = o := by
  cases op <;> cases a <;> first | (cases h; exact ⟨rfl, rfl, rfl⟩) | cases h

/-- `ofPlain` gives a command of the operation and the fields it was given. -/
theorem ofPlain_some {op : Op} {o : Operands} {i : Instr} (h : Instr.ofPlain op o = some i) :
    i.op = op ∧ i.alg = none ∧ i.operands = o := by
  cases op <;> first | (cases h; exact ⟨rfl, rfl, rfl⟩) | cases h

/-! ### The shared operations -/

/-- The field checks in the order of R115. -/
theorem fieldFault_eq_none {op : Op} {a : Option Alg} {o : Operands} :
    fieldFault op a o = none ↔ reservedBad op a o = false ∧ paramBad op a o = false := by
  unfold fieldFault
  split
  · simp_all
  · split <;> simp_all

theorem fieldFault_eq_some {op : Op} {a : Option Alg} {o : Operands} {c : ErrCode} :
    fieldFault op a o = some c ↔
      (reservedBad op a o = true ∧ c = .reserved) ∨
      (reservedBad op a o = false ∧ paramBad op a o = true ∧ c = .param) := by
  unfold fieldFault
  split
  · simp_all; exact eq_comm
  · split <;> (constructor <;> intro h <;> simp_all)

/-- A reserved-field fault comes first (R115). -/
theorem fieldFault_reserved {op : Op} {a : Option Alg} {o : Operands} (h : reservedBad op a o = true) :
    fieldFault op a o = some .reserved := fieldFault_eq_some.2 (.inl ⟨h, rfl⟩)

theorem fieldFault_param {op : Op} {a : Option Alg} {o : Operands} (hr : reservedBad op a o = false)
    (hp : paramBad op a o = true) : fieldFault op a o = some .param :=
  fieldFault_eq_some.2 (.inr ⟨hr, hp, rfl⟩)

/-- The three operand ranges of HASH and VERIFY (R140). -/
theorem hashRanges_iff {a : Alg} {o : Operands} {s : State} :
    hashRanges a o s = true ↔
      s.inRange o.src.toNat o.len.toNat = true ∧ s.inRange o.aux.toNat (auxLen a o) = true ∧
        s.inRange o.dst.toNat (outLen a (decodeParams a o)) = true := by
  simp [hashRanges, and_assoc]

/-- HASH without a fault (R140). -/
theorem hashEffect_ok {a : Alg} {o : Operands} {s : State} {e : Effect} :
    hashEffect a o s = .ok e ↔
      fieldFault .hash (some a) o = none ∧ hashRanges a o s = true ∧
        e = { store := some (o.dst.toNat, hashResult a o s) } := by
  unfold hashEffect
  split
  · simp_all
  · split <;> (constructor <;> intro h <;> simp_all)

/-- The faults of HASH (R140). -/
theorem hashEffect_error {a : Alg} {o : Operands} {s : State} {c : ErrCode} :
    hashEffect a o s = .error c ↔
      fieldFault .hash (some a) o = some c ∨
        (fieldFault .hash (some a) o = none ∧ hashRanges a o s = false ∧ c = .range) := by
  unfold hashEffect
  split
  · simp_all
  · split <;> (constructor <;> intro h <;> simp_all)

/-- VERIFY without a fault (R141). -/
theorem verifyEffect_ok {a : Alg} {o : Operands} {s : State} {e : Effect} :
    verifyEffect a o s = .ok e ↔
      fieldFault .verify (some a) o = none ∧ hashRanges a o s = true ∧
        e = { flag := some (matchFlag (hashResult a o s)
                (s.memRead o.dst.toNat (outLen a (decodeParams a o)))) } := by
  unfold verifyEffect
  split
  · simp_all
  · split <;> (constructor <;> intro h <;> simp_all)

/-- The faults of VERIFY (R141). -/
theorem verifyEffect_error {a : Alg} {o : Operands} {s : State} {c : ErrCode} :
    verifyEffect a o s = .error c ↔
      fieldFault .verify (some a) o = some c ∨
        (fieldFault .verify (some a) o = none ∧ hashRanges a o s = false ∧ c = .range) := by
  unfold verifyEffect
  split
  · simp_all
  · split <;> (constructor <;> intro h <;> simp_all)

/-- INIT without a fault (R142). -/
theorem initEffect_ok {a : Alg} {o : Operands} {s : State} {e : Effect} :
    initEffect a o s = .ok e ↔
      fieldFault .init (some a) o = none ∧ s.inRange o.aux.toNat (auxLen a o) = true ∧
        e = { slot := some (o.ctx, initSlot a o s) } := by
  unfold initEffect
  split
  · simp_all
  · split <;> (constructor <;> intro h <;> simp_all)

/-- The faults of INIT (R142). -/
theorem initEffect_error {a : Alg} {o : Operands} {s : State} {c : ErrCode} :
    initEffect a o s = .error c ↔
      fieldFault .init (some a) o = some c ∨
        (fieldFault .init (some a) o = none ∧ s.inRange o.aux.toNat (auxLen a o) = false ∧
          c = .range) := by
  unfold initEffect
  split
  · simp_all
  · split <;> (constructor <;> intro h <;> simp_all)

/-- The slot checks pass exactly on an ACTIVE slot of the same algorithm (R143, R144). -/
theorem slotFault_eq_none {a : Alg} {c : Slot} : slotFault a c = none ↔ c.state = .active ∧ c.alg = a := by
  unfold slotFault
  split
  · simp_all
  · split <;> simp_all

theorem slotFault_eq_some {a : Alg} {c : Slot} {e : ErrCode} :
    slotFault a c = some e ↔
      (c.state ≠ .active ∧ e = .ctxState) ∨ (c.state = .active ∧ c.alg ≠ a ∧ e = .ctxAlg) := by
  unfold slotFault
  split
  · simp_all; exact eq_comm
  · split <;> (constructor <;> intro h <;> simp_all)

/-- UPDATE without a fault (R143). -/
theorem updateEffect_ok {a : Alg} {o : Operands} {s : State} {e : Effect} :
    updateEffect a o s = .ok e ↔
      fieldFault .update (some a) o = none ∧ slotFault a (s.slot o.ctx) = none ∧
        s.inRange o.src.toNat o.len.toNat = true ∧
        (s.slot o.ctx).msg.length + o.len.toNat ≤ Config.maxTotal ∧
        e = { slot := some (o.ctx, { s.slot o.ctx with
                msg := (s.slot o.ctx).msg ++ s.memRead o.src.toNat o.len.toNat }) } := by
  unfold updateEffect
  split
  · simp_all
  · dsimp only
    split
    · simp_all
    · split
      · simp_all
      · split
        · grind
        · simp_all; exact eq_comm

/-- The faults of UPDATE, in their order (R143). -/
theorem updateEffect_error {a : Alg} {o : Operands} {s : State} {c : ErrCode} :
    updateEffect a o s = .error c ↔
      fieldFault .update (some a) o = some c ∨
        (fieldFault .update (some a) o = none ∧
          (slotFault a (s.slot o.ctx) = some c ∨
            (slotFault a (s.slot o.ctx) = none ∧
              ((s.inRange o.src.toNat o.len.toNat = false ∧ c = .range) ∨
                (s.inRange o.src.toNat o.len.toNat = true ∧
                  Config.maxTotal < (s.slot o.ctx).msg.length + o.len.toNat ∧ c = .length))))) := by
  unfold updateEffect
  split
  · simp_all
  · dsimp only
    split
    · simp_all
    · split
      · simp_all; exact eq_comm
      · split
        · simp_all; exact eq_comm
        · grind

/-- FINAL without a fault (R144). -/
theorem finalEffect_ok {a : Alg} {o : Operands} {s : State} {e : Effect} :
    finalEffect a o s = .ok e ↔
      fieldFault .final (some a) o = none ∧ slotFault a (s.slot o.ctx) = none ∧
        s.inRange o.dst.toNat (outLen (s.slot o.ctx).alg (s.slot o.ctx).prm) = true ∧
        e = { store := some (o.dst.toNat, digest (s.slot o.ctx).alg (s.slot o.ctx).prm
                (s.slot o.ctx).aux (s.slot o.ctx).msg)
              slot := some (o.ctx, { s.slot o.ctx with state := .finalized }) } := by
  unfold finalEffect
  split
  · simp_all
  · dsimp only
    split
    · simp_all
    · split <;> (constructor <;> intro h <;> simp_all)

/-- The faults of FINAL, in their order (R144). -/
theorem finalEffect_error {a : Alg} {o : Operands} {s : State} {c : ErrCode} :
    finalEffect a o s = .error c ↔
      fieldFault .final (some a) o = some c ∨
        (fieldFault .final (some a) o = none ∧
          (slotFault a (s.slot o.ctx) = some c ∨
            (slotFault a (s.slot o.ctx) = none ∧
              s.inRange o.dst.toNat (outLen (s.slot o.ctx).alg (s.slot o.ctx).prm) = false ∧
              c = .range))) := by
  unfold finalEffect
  split
  · simp_all
  · dsimp only
    split
    · simp_all
    · split <;> (constructor <;> intro h <;> simp_all)

/-- ROTL and ROTR without a fault (R390, R391). -/
theorem rotateEffect_ok {op : Op} {rot : {w : Nat} → BitVec w → Nat → BitVec w} {o : Operands} {s : State}
    {e : Effect} :
    rotateEffect op rot o s = .ok e ↔
      fieldFault op none o = none ∧ primRanges o s (opBytes o) = true ∧
        e = { store := some (o.dst.toNat, bytesLE
                (rot (readLE (opWidth o) (s.memRead o.src.toNat (opBytes o)) 0) (rotAmount o))) } := by
  unfold rotateEffect
  split
  · simp_all
  · split <;> (constructor <;> intro h <;> simp_all)

theorem rotateEffect_error {op : Op} {rot : {w : Nat} → BitVec w → Nat → BitVec w} {o : Operands}
    {s : State} {c : ErrCode} :
    rotateEffect op rot o s = .error c ↔
      fieldFault op none o = some c ∨
        (fieldFault op none o = none ∧ primRanges o s (opBytes o) = false ∧ c = .range) := by
  unfold rotateEffect
  split
  · simp_all
  · split <;> (constructor <;> intro h <;> simp_all)

/-- BSWAP without a fault (R392). -/
theorem bswapEffect_ok {o : Operands} {s : State} {e : Effect} :
    bswapEffect o s = .ok e ↔
      fieldFault .bswap none o = none ∧ primRanges o s (opBytes o) = true ∧
        e = { store := some (o.dst.toNat, (s.memRead o.src.toNat (opBytes o)).reverse) } := by
  unfold bswapEffect
  split
  · simp_all
  · split <;> (constructor <;> intro h <;> simp_all)

theorem bswapEffect_error {o : Operands} {s : State} {c : ErrCode} :
    bswapEffect o s = .error c ↔
      fieldFault .bswap none o = some c ∨
        (fieldFault .bswap none o = none ∧ primRanges o s (opBytes o) = false ∧ c = .range) := by
  unfold bswapEffect
  split
  · simp_all
  · split <;> (constructor <;> intro h <;> simp_all)

/-- MUL128 without a fault (R393). -/
theorem mul128Effect_ok {o : Operands} {s : State} {e : Effect} :
    mul128Effect o s = .ok e ↔
      fieldFault .mul128 none o = none ∧ s.inRange o.src.toNat 16 = true ∧
        s.inRange o.aux.toNat 16 = true ∧ s.inRange o.dst.toNat 32 = true ∧
        e = { store := some (o.dst.toNat, bytesLE
                (mul128Product (s.memRead o.src.toNat 16) (s.memRead o.aux.toNat 16))) } := by
  unfold mul128Effect
  split
  · simp_all
  · split
    · simp_all; exact eq_comm
    · simp_all

theorem mul128Effect_error {o : Operands} {s : State} {c : ErrCode} :
    mul128Effect o s = .error c ↔
      fieldFault .mul128 none o = some c ∨
        (fieldFault .mul128 none o = none ∧
          (s.inRange o.src.toNat 16 && s.inRange o.aux.toNat 16 && s.inRange o.dst.toNat 32) = false ∧
          c = .range) := by
  unfold mul128Effect
  split
  · simp_all
  · split
    · simp_all
    · rename_i h; simp only [Bool.not_eq_true] at h; simp_all; exact eq_comm

/-- A jump without a fault (R410 to R412). -/
theorem jumpEffect_ok {op : Op} {taken : Bool} {o : Operands} {e : Effect} :
    jumpEffect op taken o = .ok e ↔
      fieldFault op none o = none ∧ o.src.toNat % 32 = 0 ∧
        e = { target := if taken then some o.src else none } := by
  unfold jumpEffect
  split
  · simp_all
  · split <;> (constructor <;> intro h <;> simp_all [Config.descBytes])

theorem jumpEffect_error {op : Op} {taken : Bool} {o : Operands} {c : ErrCode} :
    jumpEffect op taken o = .error c ↔
      fieldFault op none o = some c ∨
        (fieldFault op none o = none ∧ o.src.toNat % 32 ≠ 0 ∧ c = .targetAlign) := by
  unfold jumpEffect
  split
  · simp_all
  · split <;> (constructor <;> intro h <;> simp_all [Config.descBytes])

/-- NOP and STOP without a fault (R413, R414). -/
theorem plainEffect_ok {op : Op} {x e : Effect} {o : Operands} :
    plainEffect op x o = .ok e ↔ fieldFault op none o = none ∧ e = x := by
  unfold plainEffect
  split <;> (constructor <;> intro h <;> simp_all)

theorem plainEffect_error {op : Op} {x : Effect} {o : Operands} {c : ErrCode} :
    plainEffect op x o = .error c ↔ fieldFault op none o = some c := by
  unfold plainEffect
  split <;> simp_all

/-! ### Fetching, decoding and stepping -/

/-- The outcomes of a fetch (R35). -/
theorem fetch_ok {s : State} {d : Bytes} :
    s.fetch = .ok d ↔
      s.cmdPtr.toNat % 32 = 0 ∧ s.cmdPtr.toNat + 32 ≤ s.memSize ∧ d = s.memRead s.cmdPtr.toNat 32 := by
  unfold State.fetch
  split
  · simp_all [Config.descBytes]
  · split
    · grind
    · simp_all [Config.descBytes]; exact eq_comm

theorem fetch_error {s : State} {c : ErrCode} :
    s.fetch = .error c ↔
      (s.cmdPtr.toNat % 32 ≠ 0 ∧ c = .fetchAlign) ∨
        (s.cmdPtr.toNat % 32 = 0 ∧ s.memSize < s.cmdPtr.toNat + 32 ∧ c = .fetchRange) := by
  unfold State.fetch
  split
  · simp_all [Config.descBytes]; exact eq_comm
  · split
    · simp_all [Config.descBytes]; exact eq_comm
    · grind

/-- The command at CMDPTR is the decoded descriptor. -/
theorem command_ok {s : State} {i : Instr} :
    s.command = .ok i ↔ ∃ d, s.fetch = .ok d ∧ decode d = .ok i := by
  unfold State.command
  split <;> simp_all

theorem command_error {s : State} {c : ErrCode} :
    s.command = .error c ↔ s.fetch = .error c ∨ ∃ d, s.fetch = .ok d ∧ decode d = .error c := by
  unfold State.command
  split <;> simp_all

/-- A decoded command has the fields of its descriptor. -/
theorem decode_operands {d : Bytes} {i : Instr} (h : decode d = .ok i) : i.operands = operandFields d := by
  unfold decode at h
  split at h
  · cases h
  · split at h
    · split at h
      · cases h
      · unfold orElseFault at h
        split at h
        · cases h; exact (ofHash_some (by assumption)).2.2
        · cases h
    · split at h
      · cases h
      · unfold orElseFault at h
        split at h
        · cases h; exact (ofPlain_some (by assumption)).2.2
        · cases h

theorem step_idle {s : State} (h : s.busy = false) : step s = .next s := by simp [step, h]

theorem step_abort {s : State} (h : s.busy = true) (ha : s.abortPend = true) :
    step s = .next (s.raiseFault .abort) := by simp [step, h, ha]

theorem step_error {s : State} {c : ErrCode} (h : s.busy = true) (ha : s.abortPend = false)
    (hc : s.settle.command = .error c) : step s = .next (s.settle.raiseFault c) := by
  simp [step, h, ha, hc]

theorem step_exec {s : State} {i : Instr} (h : s.busy = true) (ha : s.abortPend = false)
    (hc : s.settle.command = .ok i) : step s = exec i s.settle := by simp [step, h, ha, hc]

/-- What a step can do, guards included (R434, R456). -/
theorem step_next {s t : State} (h : step s = .next t) :
    (s.busy = false ∧ t = s) ∨
    (s.busy = true ∧ s.abortPend = true ∧ t = s.raiseFault .abort) ∨
    (s.busy = true ∧ s.abortPend = false ∧ ∃ c, s.settle.command = .error c ∧
      t = s.settle.raiseFault c) ∨
    (s.busy = true ∧ s.abortPend = false ∧ ∃ i, s.settle.command = .ok i ∧
      exec i s.settle = .next t) := by
  unfold step at h
  split at h
  · injection h with h; simp_all
  · split at h
    · injection h with h; simp_all
    · split at h
      · injection h with h; simp_all
      · simp_all

/-- A step always answers a next state. -/
theorem step_total (s : State) : ∃ t, step s = .next t := by
  unfold step
  split
  · exact ⟨_, rfl⟩
  · split
    · exact ⟨_, rfl⟩
    · split
      · exact ⟨_, rfl⟩
      · exact exec_total _ _

end Sys2Proof.Machine
end

