-- ==== Sys2Proof/Laws/PerInstr.lean ====
section
/-! SUPPORT. Per-instruction families of LAWS.json. `Rebuild`: a command is determined by its operation, its
algorithm and its operand fields, so `Instr.build` inverts the three projections (30_encoding.md R101 to R107). -/

namespace Sys2Proof.Laws.Rebuild

/-- A command is built again from its operation, its algorithm and its operand fields. -/
def Statement (i : Instr) : Prop := Instr.build i.op i.alg i.operands = some i

theorem hashMd5 (o : Operands) : Statement (.hashMd5 o) := rfl
theorem hashSha1 (o : Operands) : Statement (.hashSha1 o) := rfl
theorem hashSha256 (o : Operands) : Statement (.hashSha256 o) := rfl
theorem hashSha384 (o : Operands) : Statement (.hashSha384 o) := rfl
theorem hashBlake2b (o : Operands) : Statement (.hashBlake2b o) := rfl
theorem hashBlake3 (o : Operands) : Statement (.hashBlake3 o) := rfl
theorem hashSiphash (o : Operands) : Statement (.hashSiphash o) := rfl
theorem hashMurmur3_32 (o : Operands) : Statement (.hashMurmur3_32 o) := rfl
theorem hashMurmur3_128 (o : Operands) : Statement (.hashMurmur3_128 o) := rfl
theorem hashXxh32 (o : Operands) : Statement (.hashXxh32 o) := rfl
theorem hashXxh64 (o : Operands) : Statement (.hashXxh64 o) := rfl
theorem hashCity64 (o : Operands) : Statement (.hashCity64 o) := rfl
theorem hashCity128 (o : Operands) : Statement (.hashCity128 o) := rfl
theorem hashFarm64 (o : Operands) : Statement (.hashFarm64 o) := rfl
theorem verifyMd5 (o : Operands) : Statement (.verifyMd5 o) := rfl
theorem verifySha1 (o : Operands) : Statement (.verifySha1 o) := rfl
theorem verifySha256 (o : Operands) : Statement (.verifySha256 o) := rfl
theorem verifySha384 (o : Operands) : Statement (.verifySha384 o) := rfl
theorem verifyBlake2b (o : Operands) : Statement (.verifyBlake2b o) := rfl
theorem verifyBlake3 (o : Operands) : Statement (.verifyBlake3 o) := rfl
theorem initMd5 (o : Operands) : Statement (.initMd5 o) := rfl
theorem initSha1 (o : Operands) : Statement (.initSha1 o) := rfl
theorem initSha256 (o : Operands) : Statement (.initSha256 o) := rfl
theorem initSha384 (o : Operands) : Statement (.initSha384 o) := rfl
theorem initBlake2b (o : Operands) : Statement (.initBlake2b o) := rfl
theorem initBlake3 (o : Operands) : Statement (.initBlake3 o) := rfl
theorem initSiphash (o : Operands) : Statement (.initSiphash o) := rfl
theorem initXxh32 (o : Operands) : Statement (.initXxh32 o) := rfl
theorem initXxh64 (o : Operands) : Statement (.initXxh64 o) := rfl
theorem updateMd5 (o : Operands) : Statement (.updateMd5 o) := rfl
theorem updateSha1 (o : Operands) : Statement (.updateSha1 o) := rfl
theorem updateSha256 (o : Operands) : Statement (.updateSha256 o) := rfl
theorem updateSha384 (o : Operands) : Statement (.updateSha384 o) := rfl
theorem updateBlake2b (o : Operands) : Statement (.updateBlake2b o) := rfl
theorem updateBlake3 (o : Operands) : Statement (.updateBlake3 o) := rfl
theorem updateSiphash (o : Operands) : Statement (.updateSiphash o) := rfl
theorem updateXxh32 (o : Operands) : Statement (.updateXxh32 o) := rfl
theorem updateXxh64 (o : Operands) : Statement (.updateXxh64 o) := rfl
theorem finalMd5 (o : Operands) : Statement (.finalMd5 o) := rfl
theorem finalSha1 (o : Operands) : Statement (.finalSha1 o) := rfl
theorem finalSha256 (o : Operands) : Statement (.finalSha256 o) := rfl
theorem finalSha384 (o : Operands) : Statement (.finalSha384 o) := rfl
theorem finalBlake2b (o : Operands) : Statement (.finalBlake2b o) := rfl
theorem finalBlake3 (o : Operands) : Statement (.finalBlake3 o) := rfl
theorem finalSiphash (o : Operands) : Statement (.finalSiphash o) := rfl
theorem finalXxh32 (o : Operands) : Statement (.finalXxh32 o) := rfl
theorem finalXxh64 (o : Operands) : Statement (.finalXxh64 o) := rfl
theorem rotl (o : Operands) : Statement (.rotl o) := rfl
theorem rotr (o : Operands) : Statement (.rotr o) := rfl
theorem bswap (o : Operands) : Statement (.bswap o) := rfl
theorem mul128 (o : Operands) : Statement (.mul128 o) := rfl
theorem jump (o : Operands) : Statement (.jump o) := rfl
theorem jmatch (o : Operands) : Statement (.jmatch o) := rfl
theorem jnmatch (o : Operands) : Statement (.jnmatch o) := rfl
theorem nop (o : Operands) : Statement (.nop o) := rfl
theorem stop (o : Operands) : Statement (.stop o) := rfl

end Sys2Proof.Laws.Rebuild
end

