-- ==== Sys2Proof/WellFormed.lean ====
section
/-! DEFINITION. Which descriptors are well formed: those that pass every check that reads the descriptor alone
(60_exceptions.md R434, items 4 to 8). OP and ALG are legal by construction of `Instr`. -/

namespace Sys2Proof

/-- Every field that R107 and R110 mark 0 holds 0 (R109). -/
def Instr.reservedZero (i : Instr) : Bool := !Machine.reservedBad i.op i.alg i.operands

/-- PARAM and KLEN hold legal values (R110, R114). -/
def Instr.paramsLegal (i : Instr) : Bool := !Machine.paramBad i.op i.alg i.operands

/-- The operation is a jump (R410 to R412). -/
def Op.isJump (op : Op) : Bool := op == .jump || op == .jmatch || op == .jnmatch

/-- A jump's TARGET is a multiple of 32 (R410). -/
def Instr.targetAligned (i : Instr) : Bool :=
  !i.op.isJump || i.operands.src.toNat % Config.descBytes == 0

/-- A well-formed command. -/
def Instr.wellFormed (i : Instr) : Bool := i.reservedZero && i.paramsLegal && i.targetAligned

end Sys2Proof
end

