-- ==== Sys2Proof/Tests/Slice0.lean ====
section
/-! SUPPORT. Tests of the model against 95_test_vectors.md and the encodings of 30_encoding.md, and a witness
for the hypotheses of each statement. Expected values are the spec's. -/

namespace Sys2Proof.Tests

open Machine Claims

-- One theorem after the other: each one's kernel check would otherwise hold a thread of its own.
set_option Elab.async false

/-! ### Small states -/

/-- `P(n)` of 95_test_vectors.md. -/
def pat (n : Nat) : Bytes := (List.range n).map fun i => BitVec.ofNat 8 (i % 251)

/-- The bytes of a hexadecimal number, first byte first. -/
def hexBytes (n v : Nat) : Bytes := (natBytesLE n v).reverse

/-- "abc". -/
def abc : Bytes := [0x61#8, 0x62#8, 0x63#8]

/-- The reset state with byte strings stored in DMEM. -/
def idle (l : List (Nat × Bytes)) : State :=
  { State.reset with dmem := l.foldl (fun m p => Memory.writeBytes m p.1 p.2) [] }

/-- The same, with a run in progress. -/
def running (l : List (Nat × Bytes)) : State := { idle l with busy := true }

/-- "abc" at 0x80, its MD5 at 0x200 and its SHA-256 at 0x240. -/
def abcState : State :=
  running [(0x80, abc), (0x200, hexBytes 16 0x900150983cd24fb0d6963f7d28e17f72),
    (0x240, hexBytes 32 0xba7816bf8f01cfea414140de5dae2223b00361a396177a9cb410ff61f20015ad)]

/-- The fields of a command on "abc" that writes at 0x100. -/
def abcAt : Operands := { src := 0x80, len := 3, dst := 0x100 }

/-- The state after a command that completes without a fault. -/
def done? (i : Instr) (s : State) : Option State :=
  match exec i s with
  | .next t => if t.err then none else some t
  | _ => none

/-- What a command that completes without a fault leaves at its DST. -/
def stored (i : Instr) (s : State) : Option Bytes :=
  (done? i s).map fun t => t.memRead i.operands.dst.toNat (storedBytes i s)

/-- STATUS after a step. -/
def statusAfter (s : State) : Option Word :=
  match step s with
  | .next t => some t.status
  | _ => none

/-- The bytes of a descriptor with the given words. -/
def desc (ws : List Word) : Bytes := ws.flatMap bytesLE

/-- A run about to execute the descriptor with these words at address 0. -/
def at0 (ws : List Word) : State := running [(0, desc ws)]

/-- Slot `c` ACTIVE with an algorithm, its parameters and "abc" absorbed. -/
def withSlot (a : Alg) (p : Params) (aux : Bytes) : State :=
  abcState.setSlot 1 ⟨.active, a, p, aux, abc⟩

/-! ### Decoding: the control word of each row, from the tables of R104 and R105 -/

theorem test_decode_hash :
    (List.map (decodeTableWord 32)
      [0x101, 0x201, 0x301, 0x401, 0x501, 0x601, 0x701, 0x801, 0x901, 0xA01, 0xB01, 0xC01, 0xD01, 0xE01]) =
    List.map some [.hashMd5 {}, .hashSha1 {}, .hashSha256 {}, .hashSha384 {}, .hashBlake2b {},
      .hashBlake3 {}, .hashSiphash {}, .hashMurmur3_32 {}, .hashMurmur3_128 {}, .hashXxh32 {},
      .hashXxh64 {}, .hashCity64 {}, .hashCity128 {}, .hashFarm64 {}] := by decide +kernel

theorem test_decode_verify :
    (List.map (decodeTableWord 32) [0x102, 0x202, 0x302, 0x402, 0x502, 0x602, 0x702]) =
    [some (.verifyMd5 {}), some (.verifySha1 {}), some (.verifySha256 {}), some (.verifySha384 {}),
      some (.verifyBlake2b {}), some (.verifyBlake3 {}), none] := by decide +kernel

theorem test_decode_init :
    (List.map (decodeTableWord 32)
      [0x103, 0x203, 0x303, 0x403, 0x503, 0x603, 0x703, 0x803, 0x903, 0xA03, 0xB03, 0xC03]) =
    [some (.initMd5 {}), some (.initSha1 {}), some (.initSha256 {}), some (.initSha384 {}),
      some (.initBlake2b {}), some (.initBlake3 {}), some (.initSiphash {}), none, none,
      some (.initXxh32 {}), some (.initXxh64 {}), none] := by decide +kernel

theorem test_decode_update :
    (List.map (decodeTableWord 32)
      [0x104, 0x204, 0x304, 0x404, 0x504, 0x604, 0x704, 0x804, 0x904, 0xA04, 0xB04, 0xC04]) =
    [some (.updateMd5 {}), some (.updateSha1 {}), some (.updateSha256 {}), some (.updateSha384 {}),
      some (.updateBlake2b {}), some (.updateBlake3 {}), some (.updateSiphash {}), none, none,
      some (.updateXxh32 {}), some (.updateXxh64 {}), none] := by decide +kernel

theorem test_decode_final :
    (List.map (decodeTableWord 32)
      [0x105, 0x205, 0x305, 0x405, 0x505, 0x605, 0x705, 0x805, 0x905, 0xA05, 0xB05, 0xC05]) =
    [some (.finalMd5 {}), some (.finalSha1 {}), some (.finalSha256 {}), some (.finalSha384 {}),
      some (.finalBlake2b {}), some (.finalBlake3 {}), some (.finalSiphash {}), none, none,
      some (.finalXxh32 {}), some (.finalXxh64 {}), none] := by decide +kernel

theorem test_decode_primitives :
    (List.map (decodeTableWord 32) [0x10, 0x11, 0x12, 0x13, 0x14]) =
    [some (.rotl {}), some (.rotr {}), some (.bswap {}), some (.mul128 {}), none] := by decide +kernel

theorem test_decode_control :
    (List.map (decodeTableWord 32) [0x00, 0x20, 0x21, 0x22, 0x2F, 0x23, 0x06]) =
    [some (.nop {}), some (.jump {}), some (.jmatch {}), some (.jnmatch {}), some (.stop {}), none,
      none] := by decide +kernel

/-- The keyed BLAKE2b descriptor of L3-3, every word different from 0 in its own place. -/
theorem test_decode_fields :
    decode (desc [0x40404503, 1, 2, 3, 0x400, 5, 6, 7]) =
      .ok (.initBlake2b
        { ctx := 2, param := 64, klen := 64, src := 1, len := 2, dst := 3, aux := 0x400, xlen := 5,
          rsv0 := 6, rsv1 := 7 }) := by rfl

theorem test_encode_fields :
    encode (.initSiphash { ctx := 5, param := 2, klen := 0x81, src := 0x01020304, rsv1 := 0xA0B0C0D0 }) =
      [0x03, 0xA7, 0x02, 0x81, 0x04, 0x03, 0x02, 0x01] ++ zeros 20 ++ [0xD0, 0xC0, 0xB0, 0xA0] := by
  decide +kernel

/-! ### WellFormed: each check refuses an ill-formed command -/

theorem test_wellFormed : (Instr.hashMd5 abcAt).wellFormed = true := by decide

theorem test_reservedZero_refuses : (Instr.hashMd5 { klen := 1 }).reservedZero = false := by decide

theorem test_reservedZero_refuses_aux : (Instr.hashSiphash { xlen := 1 }).reservedZero = false := by decide

theorem test_paramsLegal_refuses : (Instr.hashBlake2b { param := 65 }).paramsLegal = false := by decide

theorem test_paramsLegal_refuses_amount : (Instr.rotl { param := 0x50 }).paramsLegal = false := by decide

theorem test_targetAligned_refuses : (Instr.jump { src := 0x30 }).targetAligned = false := by decide

/-! ### HASH -/

/-- 95_test_vectors.md V13, "abc". -/
theorem test_hashMd5 : stored (.hashMd5 abcAt) abcState =
    some (hexBytes 16 0x900150983cd24fb0d6963f7d28e17f72) := by
  decide +kernel

/-- 95_test_vectors.md V14, "abc". -/
theorem test_hashSha1 : stored (.hashSha1 abcAt) abcState =
    some (hexBytes 20 0xa9993e364706816aba3e25717850c26c9cd0d89d) := by
  decide +kernel

/-- 95_test_vectors.md V15, "abc". -/
theorem test_hashSha256 : stored (.hashSha256 abcAt) abcState =
    some (hexBytes 32 0xba7816bf8f01cfea414140de5dae2223b00361a396177a9cb410ff61f20015ad) := by
  decide +kernel

/-- 95_test_vectors.md V16, "abc". -/
theorem test_hashSha384 : stored (.hashSha384 abcAt) abcState =
    some (hexBytes 48 0xcb00753f45a35e8bb5a03d699ac65007272c32ab0eded1631a8b605a43ff5bed8086072ba1e7cc2358baeca134c825a7) := by
  decide +kernel

/-- 95_test_vectors.md V33, "abc". -/
theorem test_hashBlake2b : stored (.hashBlake2b abcAt) abcState =
    some (hexBytes 32 0xbddd813c634239723171ef3fee98579b94964e3bb1cb3e427262c8c068d52319) := by
  decide +kernel

/-- 95_test_vectors.md V40, "abc". -/
theorem test_hashBlake3 : stored (.hashBlake3 abcAt) abcState =
    some (hexBytes 32 0x6437b3ac38465133ffb63b75273a8db548c558465d79db03fd359c6cd5bd9d85) := by
  decide +kernel

/-- 95_test_vectors.md V60, "abc". -/
theorem test_hashMurmur3_32 : stored (.hashMurmur3_32 abcAt) abcState =
    some (natBytesLE 4 0xb3dd93fa) := by
  decide +kernel

/-- 95_test_vectors.md V60, "abc". -/
theorem test_hashMurmur3_128 : stored (.hashMurmur3_128 abcAt) abcState =
    some (natBytesLE 8 0xb4963f3f3fad7867 ++ natBytesLE 8 0x3ba2744126ca2d52) := by
  decide +kernel

/-- 95_test_vectors.md V70, "abc". -/
theorem test_hashXxh32 : stored (.hashXxh32 abcAt) abcState =
    some (natBytesLE 4 0x32d153ff) := by
  decide +kernel

/-- 95_test_vectors.md V70, "abc". -/
theorem test_hashXxh64 : stored (.hashXxh64 abcAt) abcState =
    some (natBytesLE 8 0x44bc2cf5ad770999) := by
  decide +kernel

/-- 95_test_vectors.md V80, "abc". -/
theorem test_hashCity64 : stored (.hashCity64 abcAt) abcState =
    some (natBytesLE 8 0x24a5b3a074e7f369) := by
  decide +kernel

/-- 95_test_vectors.md V81, "abc". -/
theorem test_hashCity128 : stored (.hashCity128 abcAt) abcState =
    some (natBytesLE 8 0x3980b2afd2126c04 ++ natBytesLE 8 0xa085f09013029e45) := by
  decide +kernel

/-- 95_test_vectors.md V80, "abc". -/
theorem test_hashFarm64 : stored (.hashFarm64 abcAt) abcState =
    some (natBytesLE 8 0x24a5b3a074e7f369) := by
  decide +kernel

/-- 95_test_vectors.md V13. -/
theorem test_hashMd5_two_blocks :
    stored (.hashMd5 { src := 0x800, len := 56, dst := 0xF00 })
        (running [(0x800, pat 56)]) =
      some (hexBytes 16 0x51fdd1acda72405dfdfa03fcb85896d7) := by
  decide +kernel

/-- 95_test_vectors.md V14. -/
theorem test_hashSha1_two_blocks :
    stored (.hashSha1 { src := 0x800, len := 56, dst := 0xF00 })
        (running [(0x800, pat 56)]) =
      some (hexBytes 20 0x636e2ec698dac903498e648bd2f3af641d3c88cb) := by
  decide +kernel

/-- 95_test_vectors.md V15. -/
theorem test_hashSha256_two_blocks :
    stored (.hashSha256 { src := 0x800, len := 56, dst := 0xF00 })
        (running [(0x800, pat 56)]) =
      some (hexBytes 32 0xda2ae4d6b36748f2a318f23e7ab1dfdf45acdc9d049bd80e59de82a60895f562) := by
  decide +kernel

/-- 95_test_vectors.md V16. -/
theorem test_hashSha384_empty :
    stored (.hashSha384 { src := 0x800, len := 0, dst := 0xF00 })
        (running [(0x800, pat 0)]) =
      some (hexBytes 48 0x38b060a751ac96384cd9327eb1b1e36a21fdb71114be07434c0cc7bf63f6e1da274edebfe76f65fbd51ad2f14898b95b) := by
  decide +kernel

/-- 95_test_vectors.md V33. -/
theorem test_hashBlake2b_keyed :
    stored (.hashBlake2b { param := 32, klen := 16, src := 0x800, len := 3, dst := 0xF00, aux := 0xE00 })
        (running [(0x800, abc), (0xE00, pat 16)]) =
      some (hexBytes 32 0x3fd8fd31501cdbe942607b204368e3dc4ebce5744de1a955a6025f5c9848bb20) := by
  decide +kernel

/-- 95_test_vectors.md V40. -/
theorem test_hashBlake3_long_output :
    stored (.hashBlake3 { xlen := 65, src := 0x800, len := 0, dst := 0xF00 })
        (running [(0x800, pat 0)]) =
      some (hexBytes 65 0xaf1349b9f5f9a1a6a0404dea36dcc9499bcb25c9adc112b7cc9a93cae41f3262e00f03e7b69af26b7faaf09fcd333050338ddfe085b8cc869ca98b206c08243a26) := by
  decide +kernel

/-- 95_test_vectors.md V50. -/
theorem test_hashSiphash_24 :
    stored (.hashSiphash { src := 0x800, len := 15, dst := 0xF00, aux := 0xE00 })
        (running [(0x800, pat 15), (0xE00, pat 16)]) =
      some (natBytesLE 8 0xa129ca6149be45e5) := by
  decide +kernel

/-- 95_test_vectors.md V50. -/
theorem test_hashSiphash_48 :
    stored (.hashSiphash { param := 2, src := 0x800, len := 15, dst := 0xF00, aux := 0xE00 })
        (running [(0x800, pat 15), (0xE00, pat 16)]) =
      some (natBytesLE 8 0x83d389d57da9a6e0) := by
  decide +kernel

/-- 95_test_vectors.md V60. -/
theorem test_hashMurmur3_32_seeded :
    stored (.hashMurmur3_32 { param := 1, src := 0x800, len := 17, dst := 0xF00, aux := 0xE00 })
        (running [(0x800, pat 17), (0xE00, natBytesLE 16 1)]) =
      some (natBytesLE 4 0xa111d572) := by
  decide +kernel

/-- 95_test_vectors.md V60. -/
theorem test_hashMurmur3_128_seeded :
    stored (.hashMurmur3_128 { param := 1, src := 0x800, len := 17, dst := 0xF00, aux := 0xE00 })
        (running [(0x800, pat 17), (0xE00, natBytesLE 16 1)]) =
      some (natBytesLE 8 0xda11ef35814e7399 ++ natBytesLE 8 0x570588bd09ad4baa) := by
  decide +kernel

/-- 95_test_vectors.md V70. -/
theorem test_hashXxh32_seeded :
    stored (.hashXxh32 { param := 1, src := 0x800, len := 17, dst := 0xF00, aux := 0xE00 })
        (running [(0x800, pat 17), (0xE00, natBytesLE 16 1)]) =
      some (natBytesLE 4 0xce2e6190) := by
  decide +kernel

/-- 95_test_vectors.md V70. -/
theorem test_hashXxh64_seeded :
    stored (.hashXxh64 { param := 1, src := 0x800, len := 33, dst := 0xF00, aux := 0xE00 })
        (running [(0x800, pat 33), (0xE00, natBytesLE 16 1)]) =
      some (natBytesLE 8 0xa371825f4210fe99) := by
  decide +kernel

/-- 95_test_vectors.md V80. -/
theorem test_hashCity64_seeds :
    stored (.hashCity64 { param := 2, src := 0x800, len := 128, dst := 0xF00, aux := 0xE00 })
        (running [(0x800, pat 128), (0xE00, natBytesLE 8 1 ++ natBytesLE 8 2)]) =
      some (natBytesLE 8 0x2734a7afc15527ad) := by
  decide +kernel

/-- 95_test_vectors.md V81. -/
theorem test_hashCity128_seeded :
    stored (.hashCity128 { param := 1, src := 0x800, len := 16, dst := 0xF00, aux := 0xE00 })
        (running [(0x800, pat 16), (0xE00, natBytesLE 8 1 ++ natBytesLE 8 2)]) =
      some (natBytesLE 8 0xd76fa5d8d82d3071 ++ natBytesLE 8 0xfb3d700edcf0b977) := by
  decide +kernel

/-- 95_test_vectors.md V80. -/
theorem test_hashFarm64_seeds :
    stored (.hashFarm64 { param := 2, src := 0x800, len := 65, dst := 0xF00, aux := 0xE00 })
        (running [(0x800, pat 65), (0xE00, natBytesLE 8 1 ++ natBytesLE 8 2)]) =
      some (natBytesLE 8 0x75ccd9320a71b7ce) := by
  decide +kernel

/-! ### VERIFY -/

/-- V13, V2: the expected digest is there, so MATCH = 1. -/
theorem test_verifyMd5_match :
    (done? (.verifyMd5 { src := 0x80, len := 3, dst := 0x200 }) abcState).map (·.matched) = some true := by
  decide +kernel

theorem test_verifySha256_match :
    (done? (.verifySha256 { src := 0x80, len := 3, dst := 0x240 }) abcState).map (·.matched) =
      some true := by decide +kernel

/-- Zero bytes are not the digest, so MATCH = 0. -/
theorem test_verify_no_match :
    ∀ c ∈ verifyCommands,
      (done? (c.2 abcAt) { abcState with matched := true }).map (·.matched) = some false := by
  decide +kernel

/-! ### Streaming -/

/-- INIT loads the slot of CTX and no other (R142). -/
theorem test_init_loads_slot :
    ∀ c ∈ initCommands,
      ((done? (c.2 { ctx := 6 }) abcState).map fun t =>
        ((t.slot 6).state, (t.slot 6).alg, (t.slot 6).msg, (t.slot 5).state)) =
        some (.active, c.1, [], .idle) := by decide +kernel

/-- UPDATE appends (R143). -/
theorem test_update_appends :
    ∀ c ∈ updateCommands,
      ((done? (c.2 { ctx := 1, src := 0x81, len := 2 }) (withSlot c.1 {} [])).map fun t =>
        ((t.slot 1).state, (t.slot 1).msg)) =
        some (.active, [0x61#8, 0x62#8, 0x63#8, 0x62#8, 0x63#8]) := by decide +kernel

/-- UPDATE of an IDLE slot, and of a slot of another algorithm (V92). -/
theorem test_update_faults :
    ∀ c ∈ updateCommands,
      exec (c.2 { ctx := 3 }) abcState = .next (abcState.raiseFault .ctxState) ∧
      exec (c.2 { ctx := 1 }) (withSlot .city64 {} []) =
        .next ((withSlot .city64 {} []).raiseFault .ctxAlg) := by
  intro c hc
  simp only [updateCommands, List.mem_cons, List.not_mem_nil, or_false] at hc
  rcases hc with h | h | h | h | h | h | h | h | h <;> subst h <;> exact ⟨rfl, rfl⟩

/-- The slot's digest and its FINALIZED state after FINAL. -/
def finalOf (i : Operands → Instr) (s : State) : Option (Bytes × SlotState) :=
  (done? (i { ctx := 1, dst := 0x100 }) s).map fun t =>
    (t.memRead 0x100 (storedBytes (i { ctx := 1, dst := 0x100 }) s), (t.slot 1).state)

/-- FINAL of "abc" writes the digests of V13 to V16, V30 and V40. -/
theorem test_final_digests :
    finalOf .finalMd5 (withSlot .md5 {} []) =
      some (hexBytes 16 0x900150983cd24fb0d6963f7d28e17f72, .finalized) ∧
    finalOf .finalSha1 (withSlot .sha1 {} []) =
      some (hexBytes 20 0xa9993e364706816aba3e25717850c26c9cd0d89d, .finalized) ∧
    finalOf .finalSha256 (withSlot .sha256 {} []) =
      some (hexBytes 32 0xba7816bf8f01cfea414140de5dae2223b00361a396177a9cb410ff61f20015ad,
        .finalized) ∧
    finalOf .finalSha384 (withSlot .sha384 {} []) =
      some (hexBytes 48 0xcb00753f45a35e8bb5a03d699ac65007272c32ab0eded1631a8b605a43ff5bed8086072ba1e7cc2358baeca134c825a7, .finalized) ∧
    finalOf .finalBlake2b (withSlot .blake2b { outlen := 32 } []) =
      some (hexBytes 32 0xbddd813c634239723171ef3fee98579b94964e3bb1cb3e427262c8c068d52319,
        .finalized) ∧
    finalOf .finalBlake3 (withSlot .blake3 { outlen := 32 } []) =
      some (hexBytes 32 0x6437b3ac38465133ffb63b75273a8db548c558465d79db03fd359c6cd5bd9d85,
        .finalized) := by decide +kernel

/-- FINAL of the hash functions on "abc": V50 by the empty message, V70. -/
theorem test_final_words :
    finalOf .finalSiphash
        ((withSlot .md5 {} []).setSlot 1 ⟨.active, .siphash, { c := 2, d := 4 }, pat 16, []⟩) =
      some (natBytesLE 8 0x726fdb47dd0e0e31, .finalized) ∧
    finalOf .finalXxh32 (withSlot .xxh32 { mode := 1 } (natBytesLE 4 1)) =
      some (natBytesLE 4 0xaa3da8ff, .finalized) ∧
    finalOf .finalXxh64 (withSlot .xxh64 {} []) =
      some (natBytesLE 8 0x44bc2cf5ad770999, .finalized) := by decide +kernel

/-! ### Primitives (V90) -/

theorem test_rotl :
    stored (.rotl { param := 0x01, src := 0x80, dst := 0x100 }) (running [(0x80, [0x81#8])]) =
      some [0x03#8] := by decide +kernel

theorem test_rotl_32 :
    stored (.rotl { param := 0x88, src := 0x80, dst := 0x80 })
      (running [(0x80, [0x78#8, 0x56#8, 0x34#8, 0x12#8])]) =
      some [0x12#8, 0x78#8, 0x56#8, 0x34#8] := by decide +kernel

theorem test_rotr :
    stored (.rotr { param := 0xC4, src := 0x80, dst := 0x100 })
      (running [(0x80, hexBytes 8 0xefcdab8967452301)]) =
      some (hexBytes 8 0xdebc9a78563412f0) := by decide +kernel

theorem test_rotr_illegal_amount :
    exec (.rotr { param := 0x50 }) abcState = .next (abcState.raiseFault .param) := by rfl

theorem test_bswap :
    stored (.bswap { param := 0xC0, src := 0x80, dst := 0x84 })
      (running [(0x80, hexBytes 8 0xefcdab8967452301)]) =
      some (hexBytes 8 0x0123456789abcdef) := by decide +kernel

/-- E_RESERVED before E_PARAM (V90). -/
theorem test_bswap_faults :
    exec (.bswap { param := 0x00 }) abcState = .next (abcState.raiseFault .param) ∧
    exec (.bswap { param := 0x01 }) abcState = .next (abcState.raiseFault .reserved) :=
  ⟨rfl, rfl⟩

theorem test_mul128 :
    stored (.mul128 { src := 0x80, aux := 0x90, dst := 0x84 })
      (running [(0x80, List.replicate 32 0xFF#8)]) =
      some (0x01#8 :: (zeros 15 ++ 0xFE#8 :: List.replicate 15 0xFF#8)) := by decide +kernel

/-! ### Control (V91) -/

/-- A run at CMDPTR = 0x40 with the given MATCH. -/
def at40 (m : Bool) : State := { running [] with cmdPtr := 0x40, matched := m }

theorem test_jump : exec (.jump { src := 0x100 }) (at40 true) =
    .next { at40 true with cmdPtr := 0x100 } := by rfl

theorem test_jump_misaligned : exec (.jump { src := 0x30 }) (running []) =
    .next ((running []).raiseFault .targetAlign) := by rfl

theorem test_jmatch_taken : exec (.jmatch { src := 0x100 }) (at40 true) =
    .next { at40 true with cmdPtr := 0x100 } := by rfl

theorem test_jmatch_not_taken : exec (.jmatch { src := 0x100 }) (at40 false) =
    .next { at40 false with cmdPtr := 0x60 } := by rfl

theorem test_jnmatch_taken : exec (.jnmatch { src := 0x100 }) (at40 false) =
    .next { at40 false with cmdPtr := 0x100 } := by rfl

theorem test_jnmatch_not_taken : exec (.jnmatch { src := 0x100 }) (at40 true) =
    .next { at40 true with cmdPtr := 0x60 } := by rfl

theorem test_nop : exec (.nop {}) (at40 true) = .next { at40 true with cmdPtr := 0x60 } := by rfl

theorem test_stop : exec (.stop {}) (at40 true) =
    .next { at40 true with cmdPtr := 0x60, busy := false, done := true } := by rfl

/-! ### Faults (V92): STATUS after one step -/

theorem test_fault_status :
    statusAfter { running [] with cmdPtr := 0x10 } = some 0x0104 ∧
    statusAfter { running [] with cmdPtr := 0x1000 } = some 0x0204 ∧
    statusAfter (at0 [0x00000006]) = some 0x0304 ∧
    statusAfter (at0 [0x00000702]) = some 0x0404 ∧
    statusAfter (at0 [0x00000001]) = some 0x0404 ∧
    statusAfter (at0 [0x00000101, 0, 0, 0, 0, 0, 1]) = some 0x0504 ∧
    statusAfter (at0 [0x00000100]) = some 0x0504 ∧
    statusAfter (at0 [0x00000120, 0x30]) = some 0x0504 ∧
    statusAfter (at0 [0x00000104, 0, 0, 0x300]) = some 0x0504 ∧
    statusAfter (at0 [0x00410501, 0, 0, 0x300, 0x10]) = some 0x0504 ∧
    statusAfter (at0 [0x00410501, 0, 0, 0x300]) = some 0x0604 ∧
    statusAfter (at0 [0x00030701]) = some 0x0604 ∧
    statusAfter (at0 [0x00000020, 0x30]) = some 0x0704 ∧
    statusAfter (at0 [0x00000104]) = some 0x0804 ∧
    statusAfter (at0 [0x00006105]) = some 0x0804 ∧
    statusAfter (at0 [0x00000301, 0xFFF, 2]) = some 0x0A04 ∧
    statusAfter (at0 [0x00000301, 0x200, 0, 0xFF0]) = some 0x0A04 ∧
    statusAfter { running [] with abortPend := true, cmdPtr := 0x10 } = some 0x0C04 := by decide +kernel

/-- For contrast: the last byte of DMEM, and an empty range beyond it, do not fault (V92, R82). -/
theorem test_no_fault_at_the_edge :
    statusAfter (at0 [0x00000301, 0xFFF, 1, 0x200]) = some 0x0001 ∧
    statusAfter (at0 [0x00000301, 0x1000, 0, 0x200]) = some 0x0001 := by decide +kernel

/-- The step of a state in which the host placed a command runs it. -/
theorem test_withFetchWord :
    (∃ t, step (State.reset.withFetchWord 32 0x101) = .next t ∧ t.cmdPtr = 32 ∧ t.err = false) ∧
    step (State.reset.withFetchWord 32 0x2F) =
      .next { State.reset.withFetchWord 32 0x2F with cmdPtr := 32, busy := false, done := true } := by
  refine ⟨⟨_, rfl, ?_, ?_⟩, rfl⟩ <;> decide +kernel

/-- The host boots a run: descriptor, CMDPTR, START (R484). -/
theorem test_host_start :
    (match hostWriteMem 0x20 (encode (.stop {})) State.reset with
      | .next a =>
        match hostWriteReg 0x10 4 0x20 a with
        | .next b =>
          match hostWriteReg 0x08 4 5 b with
          | .next c => (c.busy, c.irqEn, statusAfter c)
          | _ => (false, false, none)
        | _ => (false, false, none)
      | _ => (false, false, none)) = (true, true, some 0x0002) := by decide +kernel


/-! ### Witnesses: concrete states and operands that meet the hypotheses of each statement -/

/-- A run at a given CMDPTR. -/
def runAt (p : Word) : State := { running [] with cmdPtr := p }

/-- A run about to execute a command stored at address 0. -/
def runOf (i : Instr) : State := running [(0, encode i)]

/-! The checks of the statements are decidable; each has a Bool. -/

def decideAlgReserved (alg : BitVec 5) (o : Operands) : Decidable (algReserved alg o) := by
  unfold algReserved; infer_instance

def decideReserved (op : BitVec 8) (alg : BitVec 5) (o : Operands) :
    Decidable (reservedFails op alg o) := by
  have := decideAlgReserved alg o
  unfold reservedFails
  refine @instDecidableOr _ _ ?_ (@instDecidableOr _ _ ?_ ?_) <;> infer_instance

def decideParam (op : BitVec 8) (alg : BitVec 5) (o : Operands) : Decidable (paramFails op alg o) := by
  unfold paramFails algParamFails; infer_instance

def decideInRange (s : State) (a n : Nat) : Decidable (InRange s a n) := by
  unfold InRange; infer_instance

def reservedB (op : BitVec 8) (alg : BitVec 5) (o : Operands) : Bool :=
  @decide _ (decideReserved op alg o)

def paramB (op : BitVec 8) (alg : BitVec 5) (o : Operands) : Bool := @decide _ (decideParam op alg o)

def inRangeB (s : State) (a n : Nat) : Bool := @decide _ (decideInRange s a n)

theorem reserved_iff (op : BitVec 8) (alg : BitVec 5) (o : Operands) :
    reservedFails op alg o ↔ reservedB op alg o = true := (@decide_eq_true_iff _ (_)).symm

theorem param_iff (op : BitVec 8) (alg : BitVec 5) (o : Operands) :
    paramFails op alg o ↔ paramB op alg o = true := (@decide_eq_true_iff _ (_)).symm

theorem inRangeB_iff (s : State) (a n : Nat) : InRange s a n ↔ inRangeB s a n = true :=
  (@decide_eq_true_iff _ (_)).symm

def decideRange (op : BitVec 8) (alg : BitVec 5) (o : Operands) (s : State) :
    Decidable (rangeFails op alg o s) := by
  have := decideInRange s
  unfold rangeFails hashInRange finalInRange
  infer_instance

/-- `checkFails` as a Bool. -/
def checkFailsB (s : State) (e : ErrCode) : Bool :=
  let d := s.memRead s.cmdPtr.toNat 32
  let o := operandFields d
  let hashOp := decide (0x01#8 ≤ opField d ∧ opField d ≤ 0x05#8)
  let slotOp := opField d == 0x04#8 || opField d == 0x05#8
  match e with
  | .abort => s.abortPend
  | .fetchAlign => s.cmdPtr.toNat % 32 != 0
  | .fetchRange => s.memSize < s.cmdPtr.toNat + 32
  | .illegalOp => !opCodes.contains (opField d)
  | .illegalAlg => hashOp && !(algCodes (opField d)).contains (algBits d)
  | .reserved => reservedB (opField d) (algBits d) o
  | .param => paramB (opField d) (algBits d) o
  | .targetAlign =>
    (opField d == 0x20#8 || opField d == 0x21#8 || opField d == 0x22#8) && o.src.toNat % 32 != 0
  | .ctxState => slotOp && (s.slot o.ctx).state != .active
  | .ctxAlg => slotOp && algCode (s.slot o.ctx).alg != algBits d
  | .range => @decide _ (decideRange (opField d) (algBits d) o s)
  | .length => opField d == 0x04#8 && 2 ^ 61 - 1 < (s.slot o.ctx).msg.length + o.len.toNat

theorem checkFails_iff (s : State) (e : ErrCode) : checkFails s e ↔ checkFailsB s e = true := by
  cases e <;> simp [checkFails, checkFailsB, isHashOp, reserved_iff, param_iff, or_assoc]

/-- Of StatusRegister, StepKeepsInv and every statement on states of the invariant. -/
theorem witness_inv :
    State.reset.inv = true ∧ (running []).inv = true ∧ abcState.inv = true ∧
    ({ idle [] with done := true } : State).inv = true ∧
    ({ idle [] with err := true, errCode := 1 } : State).inv = true ∧
    (runOf (.hashMd5 abcAt)).inv = true := by decide +kernel

theorem witness_IdleCore :
    State.reset.busy = false ∧
    ∃ t, sysStep (.writeReg 0x08 4 1) State.reset = .next t ∧ t.busy = true := ⟨rfl, _, rfl, rfl⟩

theorem witness_ReservedRegisters :
    ((2 : Nat) ≠ 4 ∨ 0 % 4 ≠ 0 ∨ 0x20 ≤ 0) ∧ ((4 : Nat) ≠ 4 ∨ 0x1E % 4 ≠ 0 ∨ 0x20 ≤ 0x1E) ∧
    ((4 : Nat) ≠ 4 ∨ 0x20 % 4 ≠ 0 ∨ 0x20 ≤ 0x20) := by decide

theorem witness_CtrlRegister :
    (1#32).getLsbD 0 = true ∧ (0#32).getLsbD 0 = false ∧ State.reset.busy = false ∧
    State.reset.clean = true ∧ State.reset.abortPend = false ∧ State.reset.cmdPtr.toNat % 32 = 0 ∧
    State.reset.cmdPtr.toNat + 32 ≤ State.reset.memSize ∧
    decode (State.reset.memRead State.reset.cmdPtr.toNat 32) = .ok (.nop {}) ∧
    (running []).busy = true := ⟨rfl, rfl, rfl, rfl, rfl, rfl, by decide, rfl, rfl⟩

theorem witness_CmdPtrRegister :
    (running []).busy = true ∧ step (running []) = .next (runAt 32) ∧
    { running [] with abortPend := true }.busy = true ∧
    step { { running [] with abortPend := true } with abortPend := false } = .next (runAt 32) ∧
    { running [] with abortPend := true }.ptrAfter = 32 := ⟨rfl, rfl, rfl, rfl, rfl⟩

theorem witness_ErrPtrWrittenOnlyAtFaults :
    (runAt 0x10).busy = true ∧ (runAt 0x10).err = false ∧
    sysStep .core (runAt 0x10) = .next ((runAt 0x10).raiseFault .fetchAlign) ∧
    step (runAt 0x10) = .next ((runAt 0x10).raiseFault .fetchAlign) ∧
    ((runAt 0x10).raiseFault .fetchAlign).err = true ∧
    ((runAt 0x10).raiseFault .fetchAlign).errPtr ≠ (runAt 0x10).errPtr :=
  ⟨rfl, rfl, rfl, rfl, rfl, by decide⟩

/-- IRQ is up after a run that stopped with IRQ_EN = 1, and each way to drop it applies. -/
theorem witness_IrqOutput :
    ({ runOf (.stop {}) with irqEn := true } : State).busy = true ∧
    (∃ t, step { runOf (.stop {}) with irqEn := true } = .next t ∧ t.busy = false ∧ t.irq = true) ∧
    (∃ t, hostWriteReg 0x0C 4 6 (running []) = .next t) ∧
    (∃ t, hostWriteReg 0x08 4 0 (running []) = .next t) ∧
    (∃ t, (5#32).getLsbD 0 = true ∧ hostWriteReg 0x08 4 5 State.reset = .next t) :=
  ⟨rfl, ⟨_, rfl, rfl, rfl⟩, ⟨_, rfl⟩, ⟨_, rfl⟩, _, rfl, rfl⟩

theorem witness_HostMemory :
    Memory.wf State.reset.dmem = true ∧ State.reset.busy = false ∧ State.reset.clean = true ∧
    InRange State.reset 0xFFF 1 ∧ InRange State.reset 0x1000 0 ∧ ¬InRange State.reset 0xFFF 2 ∧
    ¬InRange State.reset 0x1000 1 := by
  simp only [inRangeB_iff]; decide +kernel

theorem witness_SpoiledBytes :
    (running []).busy = true ∧ InRange (running []) 0xFFF 1 ∧ InRange (running []) 0 4096 ∧
    Memory.wf (idle []).dmem = true ∧ (idle []).busy = false ∧ InRange (idle []) 0 4096 := by
  simp only [inRangeB_iff]; decide +kernel

theorem witness_StepRunsDecoded :
    (runOf (.hashMd5 abcAt)).busy = true ∧ (runOf (.hashMd5 abcAt)).abortPend = false ∧
    (runOf (.hashMd5 abcAt)).cmdPtr.toNat % 32 = 0 ∧
    (runOf (.hashMd5 abcAt)).cmdPtr.toNat + 32 ≤ (runOf (.hashMd5 abcAt)).memSize ∧
    decode ((runOf (.hashMd5 abcAt)).settle.memRead 0 32) = .ok (.hashMd5 abcAt) ∧
    (runOf (.hashMd5 abcAt)).clean = true := ⟨rfl, rfl, rfl, by decide, rfl, rfl⟩

theorem witness_FetchFaults :
    (runAt 0x10).clean = true ∧ (runAt 0x10).cmdPtr.toNat % 32 ≠ 0 ∧
    (runAt 0x1000).cmdPtr.toNat % 32 = 0 ∧
    (runAt 0x1000).memSize < (runAt 0x1000).cmdPtr.toNat + 32 ∧
    (State.poweredOn (2 ^ 32) []).memSize ≤ 2 ^ 32 ∧ (runAt 0xFFFFFFE0).cmdPtr = 0xFFFFFFE0#32 := by
  decide +kernel

theorem witness_AbortTaken :
    (∃ s : State, s.busy = true ∧ s.abortPend = true) ∧
    ∃ t, (runOf (.stop {})).busy = true ∧
      step { runOf (.stop {}) with abortPend := true } = .next t ∧ t.busy = false :=
  ⟨⟨{ running [] with abortPend := true }, rfl, rfl⟩, _, rfl, rfl, rfl⟩

theorem witness_EncodeDecode : (zeros 32).length = 32 ∧ decode (zeros 32) = .ok (.nop {}) :=
  ⟨rfl, rfl⟩

/-- The largest legal parameters of each algorithm are legal, the next ones are not. -/
theorem witness_DigestLength :
    (∀ c ∈ hashCommands, ¬paramFails 0x01#8 (algCode c.1) {}) ∧
    ¬paramFails 0x01#8 0x05#5 { param := 64, klen := 64 } ∧ paramFails 0x01#8 0x05#5 { param := 65 } ∧
    ¬paramFails 0x01#8 0x07#5 { param := 2 } ∧ paramFails 0x01#8 0x07#5 { param := 3 } ∧
    ¬paramFails 0x01#8 0x0E#5 { param := 2 } ∧ ¬paramFails 0x01#8 0x0D#5 { param := 1 } ∧
    paramFails 0x01#8 0x0D#5 { param := 2 } := by
  simp only [param_iff]; decide +kernel

theorem witness_DigestTable :
    ({} : Params).mode = 0 ∧ ({ mode := 1 } : Params).mode = 1 ∧ ({ mode := 2 } : Params).mode = 2 :=
  ⟨rfl, rfl, rfl⟩

/-- Every HASH and VERIFY passes all its checks with every field 0 in the reset state; the range check passes
to the last byte of DMEM and fails one byte later. -/
theorem witness_HashRule :
    Memory.wf State.reset.dmem = true ∧
    (∀ c ∈ hashCommands, ¬reservedFails 0x01#8 (algCode c.1) {} ∧
      ¬paramFails 0x01#8 (algCode c.1) {} ∧ hashInRange (algCode c.1) {} State.reset ∧
      reservedFails 0x01#8 (algCode c.1) { ctx := 1 }) ∧
    hashInRange 0x03#5 { src := 0xFFF, len := 1, dst := 0xFE0 } State.reset ∧
    ¬hashInRange 0x03#5 { src := 0xFFF, len := 2 } State.reset ∧
    ¬hashInRange 0x03#5 { dst := 0xFE1 } State.reset := by
  simp only [reserved_iff, param_iff, hashInRange, inRangeB_iff]
  decide +kernel

theorem witness_VerifyRule :
    ∀ c ∈ verifyCommands, ¬reservedFails 0x02#8 (algCode c.1) {} ∧
      ¬paramFails 0x02#8 (algCode c.1) {} ∧ hashInRange (algCode c.1) {} State.reset ∧
      reservedFails 0x02#8 (algCode c.1) { rsv1 := 1 } ∧
      ¬hashInRange (algCode c.1) { dst := 0xFFF } State.reset := by
  simp only [reserved_iff, param_iff, hashInRange, inRangeB_iff]
  decide +kernel

theorem witness_InitRule :
    (∀ c ∈ initCommands, ¬reservedFails 0x03#8 (algCode c.1) {} ∧
      ¬paramFails 0x03#8 (algCode c.1) {} ∧ InRange State.reset 0 (auxBytes (algCode c.1) {}) ∧
      reservedFails 0x03#8 (algCode c.1) { dst := 1 }) ∧
    ¬InRange State.reset 0xFFF (auxBytes 0x07#5 { aux := 0xFFF }) := by
  simp only [reserved_iff, param_iff, inRangeB_iff]
  decide +kernel

/-- The slot has absorbed 3 bytes, far below MAX_TOTAL; the other side of that check is
`witness_FaultPriority_length`. -/
theorem witness_UpdateRule :
    ∀ c ∈ updateCommands, ¬reservedFails 0x04#8 (algCode c.1) { ctx := 1, src := 0xFFF, len := 1 } ∧
      ((withSlot c.1 {} []).slot 1).state = .active ∧ ((withSlot c.1 {} []).slot 1).alg = c.1 ∧
      InRange (withSlot c.1 {} []) 0xFFF 1 ∧
      ((withSlot c.1 {} []).slot 1).msg.length = 3 ∧
      (State.reset.slot 1).state ≠ .active ∧ ((withSlot .city64 {} []).slot 1).alg ≠ c.1 ∧
      ¬InRange (withSlot c.1 {} []) 0xFFF 2 ∧ reservedFails 0x04#8 (algCode c.1) { dst := 0x300 } := by
  simp only [reserved_iff, inRangeB_iff]; decide +kernel

theorem witness_FinalRule :
    ∀ c ∈ finalCommands, ¬reservedFails 0x05#8 (algCode c.1) { ctx := 1, dst := 0x100 } ∧
      Memory.wf (withSlot c.1 {} []).dmem = true ∧
      ((withSlot c.1 {} []).slot 1).state = .active ∧ ((withSlot c.1 {} []).slot 1).alg = c.1 ∧
      finalInRange { ctx := 1, dst := 0x100 } (withSlot c.1 {} []) ∧
      ¬finalInRange { ctx := 1, dst := 0xFFF } (withSlot c.1 { outlen := 2 } []) ∧
      reservedFails 0x05#8 (algCode c.1) { param := 1 } := by
  simp only [reserved_iff, finalInRange, inRangeB_iff]; decide +kernel

/-- The message "abc" in three pieces, one of them empty. -/
theorem witness_StreamingEquivalence :
    (∀ c ∈ streaming,
      ¬reservedFails 0x01#8 (algCode c.alg) { src := 0x80, len := 3, dst := 0x100 } ∧
      ¬paramFails 0x01#8 (algCode c.alg) { src := 0x80, len := 3, dst := 0x100 } ∧
      hashInRange (algCode c.alg) { src := 0x80, len := 3, dst := 0x100 } abcState) ∧
    (InRange abcState 0x80 2 ∧ InRange abcState 0x1000 0 ∧ InRange abcState 0x82 1) ∧
    abcState.memRead 0x80 3 =
      [((0x80 : Word), (2 : Word)), (0x1000, 0), (0x82, 1)].flatMap
        (fun q => abcState.memRead q.1.toNat q.2.toNat) := by
  simp only [reserved_iff, param_iff, hashInRange, inRangeB_iff]
  decide +kernel

theorem witness_DigestDeterminism :
    Memory.wf abcState.dmem = true ∧ Memory.wf (running [(0x300, abc)]).dmem = true ∧
    abcState.memRead 0x80 3 = (running [(0x300, abc)]).memRead 0x300 3 ∧
    (∀ c ∈ hashCommands, ¬reservedFails 0x01#8 (algCode c.1) abcAt ∧
      ¬reservedFails 0x01#8 (algCode c.1) { src := 0x300, len := 3 } ∧
      ¬paramFails 0x01#8 (algCode c.1) abcAt ∧ hashInRange (algCode c.1) abcAt abcState ∧
      hashInRange (algCode c.1) { src := 0x300, len := 3 } (running [(0x300, abc)]) ∧
      abcState.memRead 0 (auxBytes (algCode c.1) abcAt) =
        (running [(0x300, abc)]).memRead 0 (auxBytes (algCode c.1) { src := 0x300, len := 3 })) := by
  simp only [reserved_iff, param_iff, hashInRange, inRangeB_iff]
  decide +kernel

theorem witness_MdPadding :
    (8 < 64 ∧ 8 * (pat 55).length < 256 ^ 8) ∧ (16 < 128 ∧ 8 * (pat 112).length < 256 ^ 16) := by
  decide

theorem witness_MdIteration : 0 < 64 ∧ (pat 64).length % 64 = 0 ∧ (pat 64).length = 64 := by decide

theorem witness_Blake2bKeyCases :
    ([] : Bytes).length ≤ 64 ∧ (pat 64).length ≤ 64 ∧ pat 64 ≠ [] ∧ pat 1 ≠ [] := by decide

theorem witness_Blake3Output : 64 < 65 ∧ 64 ≤ 65 := by decide

theorem witness_Blake3Tree :
    (zeros 1024).length ≤ 1024 ∧ 1024 < (zeros 1025).length ∧ (zeros 2048).length ≤ 2048 ∧
    (zeros 3073).length ≤ 1024 * 2 ^ 2 ∧ (zeros 4096).length ≤ 1024 * 2 ^ 2 := by
  simp only [length_zeros]; decide

theorem witness_FarmIsCityUpTo32 : (pat 32).length ≤ 32 := by decide

theorem witness_RotlRule :
    Memory.wf State.reset.dmem = true ∧
    (∀ p ∈ [0x07#8, 0x4F#8, 0x9F#8, 0xFF#8], ∀ op ∈ [0x10#8, 0x11#8],
      ¬reservedFails op 0 { param := p, src := 0xFF8, dst := 0xFF8 } ∧
      ¬(width { param := p, src := 0xFF8, dst := 0xFF8 } ≤
        amount { param := p, src := 0xFF8, dst := 0xFF8 }) ∧
      (InRange State.reset 0xFF8 (width { param := p } / 8) ∧
        InRange State.reset 0xFF8 (width { param := p } / 8))) ∧
    width { param := 0x08 } ≤ amount { param := 0x08 } ∧
    ¬InRange State.reset 0xFF9 (width { param := 0xC0 } / 8) ∧ reservedFails 0x10#8 0 { len := 1 } := by
  simp only [reserved_iff, inRangeB_iff]; decide +kernel

theorem witness_RotrRule :
    0 < amount { param := 1 } ∧ amount { param := 0x40 } = 0 ∧ reservedFails 0x11#8 0 { klen := 1 } ∧
    width { param := 0x50 } ≤ amount { param := 0x50 } := by
  simp only [reserved_iff]; decide +kernel

theorem witness_BswapRule :
    (∀ p ∈ [0x40#8, 0x80#8, 0xC0#8], ¬reservedFails 0x12#8 0 { param := p, src := 0xFF8 } ∧
      ¬width { param := p, src := 0xFF8 } = 8 ∧ InRange State.reset 0xFF8 (width { param := p } / 8)) ∧
    width {} = 8 ∧ reservedFails 0x12#8 0 { param := 0x41 } ∧ ¬InRange State.reset 0xFFF 2 := by
  simp only [reserved_iff, inRangeB_iff]; decide +kernel

theorem witness_Mul128Rule :
    ¬reservedFails 0x13#8 0 { src := 0xFF0, aux := 0xFF0, dst := 0xFE0 } ∧
    InRange State.reset 0xFF0 16 ∧ InRange State.reset 0xFE0 32 ∧ ¬InRange State.reset 0xFE1 32 ∧
    reservedFails 0x13#8 0 { param := 1 } := by
  simp only [reserved_iff, inRangeB_iff]; decide +kernel

theorem witness_PrimitiveLaws :
    amount { param := 0xFF, dst := 8 } < width { param := 0xFF, dst := 8 } ∧
    amount { param := 0x40, dst := 8 } = 0 ∧ 8 < width { param := 0x40, dst := 8 } ∧
    InRange State.reset 0 8 ∧ InRange State.reset 8 8 ∧ InRange State.reset 0xFF8 8 := by
  simp only [inRangeB_iff]; decide +kernel

/-- Also of JmatchRule and JnmatchRule. -/
theorem witness_JumpRule :
    (∀ op ∈ [0x20#8, 0x21#8, 0x22#8], ¬reservedFails op 0 { src := 0xFFFFFFE0 } ∧
      reservedFails op 0 { src := 0x20, dst := 1 }) ∧
    ¬((0xFFFFFFE0 : Word).toNat % 32 ≠ 0) ∧ (0x30 : Word).toNat % 32 ≠ 0 := by
  simp only [reserved_iff]; decide +kernel

/-- Also of StopRule. -/
theorem witness_NopRule : ¬(({} : Operands) ≠ {}) ∧ ({ rsv1 := 1 } : Operands) ≠ {} := by decide

theorem witness_RunEndsOneWay :
    (∃ t, step (runOf (.stop {})) = .next t ∧ (runOf (.stop {})).inv = true ∧
      (runOf (.stop {})).busy = true ∧ t.busy = false) ∧
    (∃ t, step (runAt 0x10) = .next t ∧ (runAt 0x10).inv = true ∧ t.busy = false) ∧
    (runAt 0x1000).inv = true ∧ (runAt 0x1000).abortPend = false ∧
    (runAt 0x1000).cmdPtr.toNat % 32 = 0 ∧
    (runAt 0x1000).memSize < (runAt 0x1000).cmdPtr.toNat + 32 :=
  ⟨⟨_, rfl, by decide +kernel, rfl, rfl⟩, ⟨_, rfl, by decide +kernel, rfl⟩, by decide +kernel, rfl, rfl,
    by decide⟩

theorem witness_PointerAfterCommand :
    (running []).err = false ∧ exec (.jmatch { src := 0x40 }) (running []) = .next (runAt 32) ∧
    exec (.hashMd5 { ctx := 1 }) (running []) = .next ((running []).raiseFault .reserved) ∧
    exec (.jump { src := 0x40 }) (runAt 0xFFFFFFE0) = .next (runAt 0x40) := ⟨rfl, rfl, rfl, rfl⟩

theorem witness_MatchWrittenOnlyByVerify :
    (∃ t, sysStep .reset { running [] with matched := true } = .next t ∧ t.matched = false) ∧
    exec (.nop {}) (running []) = .next (runAt 32) ∧ (Instr.nop {}).op ≠ .verify :=
  ⟨⟨_, rfl, rfl⟩, rfl, by decide⟩

/-- A HASH changes a byte, an INIT changes a slot. -/
theorem witness_CommandFrame :
    ((done? (.hashMd5 abcAt) abcState).map fun t =>
      Memory.read t.dmem 0x100 != Memory.read abcState.dmem 0x100) = some true ∧
    ((done? (.initMd5 { ctx := 1 }) abcState).map fun t => t.slot 1 != abcState.slot 1) = some true ∧
    abcState.inv = true := by decide +kernel

/-- A state in which the checks of R434 fail from one of them on, for each of them but E_LENGTH. -/
def failing : List (ErrCode × State) :=
  [(.abort, { runAt 0x10 with abortPend := true }), (.fetchAlign, runAt 0x1010),
   (.fetchRange, runAt 0x1000), (.illegalOp, at0 [0x06]), (.illegalAlg, at0 [0x702]),
   (.reserved, at0 [0x00410501, 0, 0, 0x300, 0x10]), (.param, at0 [0x00030701, 0xFFF, 2]),
   (.targetAlign, at0 [0x20, 0x30]), (.ctxState, at0 [0x104, 0xFFF, 2]),
   (.ctxAlg, { at0 [0x2104, 0xFFF, 2] with
      slots := (at0 []).slots.set 1 ⟨.active, .sha256, {}, [], []⟩ }),
   (.range, at0 [0x301, 0xFFF, 2])]

theorem witness_FaultPriority :
    ∀ w ∈ failing, w.2.busy = true ∧ w.2.clean = true ∧ checkFails w.2 w.1 ∧
      ∀ p ∈ priority.takeWhile (fun p => p.1 != w.1), ¬checkFails w.2 p.1 := by
  simp only [checkFails_iff]
  decide +kernel

/-- E_LENGTH: one byte more than MAX_TOTAL. -/
theorem witness_FaultPriority_length :
    ∃ m : Bytes, 2 ^ 61 - 1 < m.length + (1#32).toNat ∧ m.length ≤ 2 ^ 61 - 1 :=
  have h : ∀ n : Nat, n < n + (1#32).toNat := fun n => Nat.lt_add_of_pos_right (by decide)
  ⟨List.replicate (2 ^ 61 - 1) 0, by rw [List.length_replicate]; exact h _,
    Nat.le_of_eq List.length_replicate⟩

theorem witness_NoFaultWithoutFailedCheck :
    (running []).busy = true ∧ (running []).clean = true ∧
    ∀ p ∈ priority, ¬checkFails (running []) p.1 := by
  simp only [checkFails_iff]
  decide +kernel

/-- Also of ResumeAfterFault. -/
theorem witness_FaultsArePrecise :
    (runAt 0x10).busy = true ∧ (runAt 0x10).clean = true ∧ (runAt 0x10).err = false ∧
    (runAt 0x10).inv = true ∧
    ∃ t, step (runAt 0x10) = .next t ∧ t.err = true ∧ (1#32).getLsbD 0 = true :=
  ⟨rfl, rfl, rfl, by decide +kernel, _, rfl, rfl, rfl⟩

theorem witness_AbortLatch :
    ((running []).abortPend = true → (running []).busy = true) ∧
    (∃ t, sysStep (.writeReg 0x08 4 2) (running []) = .next t ∧ t.abortPend = true) ∧
    ∃ t, sysStep .core { running [] with abortPend := true } = .next t :=
  ⟨by decide, ⟨_, rfl, rfl⟩, _, rfl⟩

/-- A reset while the HASH at 0 is in progress: its 16 bytes at 0x100 hold any value, with an abort latched
(R435) as without. -/
theorem witness_ResetDuringRun :
    (runOf (.hashMd5 abcAt)).busy = true ∧
    (runOf (.hashMd5 abcAt)).inProgress = addrRange 0x100 16 ∧
    { runOf (.hashMd5 abcAt) with abortPend := true }.inProgress = addrRange 0x100 16 ∧
    (runOf (.stop {})).inProgress = [] := by decide +kernel

theorem witness_EventKeepsInv :
    (running []).inv = true ∧ (∃ t, step (running []) = .next t) ∧
    ∃ t, sysStep (.writeMem 0xFFF [1]) (running []) = .next t := ⟨by decide +kernel, ⟨_, rfl⟩, _, rfl⟩

end Sys2Proof.Tests
end

section
/-! Digests and slots: the length of every digest (R146), and the parameters a slot may hold (R41, R110). -/

namespace Sys2Proof.Machine

/-! ### The length of a digest -/

theorem length_flatMap_of_length {α : Type} {f : α → Bytes} {k : Nat} (hf : ∀ x, (f x).length = k)
    (l : List α) : (l.flatMap f).length = l.length * k := by
  induction l with
  | nil => simp
  | cons x xs ih => rw [List.flatMap_cons, List.length_append, hf, ih, List.length_cons, Nat.succ_mul, Nat.add_comm]

@[simp] theorem length_md5 (m : Bytes) : (md5 m).length = 16 :=
  length_flatMap_of_length length_bytesLE _

@[simp] theorem length_sha1 (m : Bytes) : (sha1 m).length = 20 :=
  length_flatMap_of_length length_bytesBE _

@[simp] theorem length_sha2Serialise {w : Nat} (h : Sha2State w) : (sha2Serialise h).length = 8 * (w / 8) :=
  length_flatMap_of_length length_bytesBE _

@[simp] theorem length_sha256 (m : Bytes) : (sha256 m).length = 32 := length_sha2Serialise _

@[simp] theorem length_sha384 (m : Bytes) : (sha384 m).length = 48 := by simp [sha384]

@[simp] theorem length_blake2bF (h : List Word64) (blk : Bytes) (t : BitVec 128) (last : Bool) :
    (blake2bF h blk t last).length = 8 := by simp [blake2bF]

/-- BLAKE2b has 64 bytes to give (R236). -/
theorem length_blake2b (m key : Bytes) {nn : Nat} (h : nn ≤ 64) : (blake2b m key nn).length = nn := by
  simp [blake2b, length_flatMap_of_length length_bytesLE, h]

@[simp] theorem length_rootBlock (r : Blake3Output) (k : Nat) : (rootBlock r k).length = 64 := by
  simp [rootBlock, length_flatMap_of_length length_bytesLE, blake3Compress]

/-- BLAKE3 gives as many bytes as it is asked for (R267). -/
@[simp] theorem length_blake3 (m : Bytes) (n : Nat) : (blake3 m n).length = n := by
  have hn : n ≤ ceilDiv n 64 * 64 := by unfold ceilDiv; omega
  simp [blake3, length_flatMap_of_length (length_rootBlock _), hn]

@[simp] theorem length_pairBytes (v : Word64 × Word64) : (pairBytes v).length = 16 := by simp [pairBytes]

/-- A digest has the length of R146; BLAKE2b's only up to the 64 bytes that R110 allows. -/
theorem length_digest {a : Alg} {p : Params} (h : a = .blake2b → p.outlen ≤ 64) (x m : Bytes) :
    (digest a p x m).length = outLen a p := by
  cases a with
  | blake2b => exact length_blake2b _ _ (h rfl)
  | _ => simp [digest, outLen]

/-! ### Legal parameters (R110, R145) -/

/-- The algorithms that INIT, UPDATE and FINAL accept (R106). -/
def streamingAlgs : List Alg :=
  [.md5, .sha1, .sha256, .sha384, .blake2b, .blake3, .siphash, .xxh32, .xxh64]

/-- The field checks of an algorithm's command include those of PARAM and KLEN (R115). -/
theorem algParamBad_of_fieldFault {op : Op} {a : Alg} {o : Operands} (hop : op ∈ [Op.hash, .verify, .init])
    (h : fieldFault op (some a) o = none) : algParamBad a o = false := by
  have hp := (fieldFault_eq_none.1 h).2
  simp only [List.mem_cons, List.not_mem_nil, or_false] at hop
  rcases hop with rfl | rfl | rfl <;> exact hp

theorem defaultOutlen_le {n k : Nat} (hk : 32 ≤ k) (h : n ≤ k) : defaultOutlen n ≤ k := by
  unfold defaultOutlen; split <;> omega

theorem defaultOutlen_pos (n : Nat) : 1 ≤ defaultOutlen n := by
  unfold defaultOutlen; split <;> omega

theorem decodeParams_outlen_le {a : Alg} {o : Operands} (h : algParamBad a o = false) (ha : a = .blake2b) :
    (decodeParams a o).outlen ≤ 64 := by
  subst ha
  simp only [algParamBad, Bool.or_eq_false_iff, decide_eq_false_iff_not, Nat.not_lt] at h
  exact defaultOutlen_le (by decide) h.1

theorem slotParamsOk_outlen_le {a : Alg} {p : Params} {x : Bytes} (h : slotParamsOk a p x = true)
    (ha : a = .blake2b) : p.outlen ≤ 64 := by
  subst ha
  simp only [slotParamsOk, Bool.and_eq_true, decide_eq_true_eq] at h
  exact h.1.1.2

/-- What INIT decodes from legal fields is legal in a slot, with as many AUX bytes as R112 says. -/
theorem slotParamsOk_decodeParams {a : Alg} {o : Operands} {x : Bytes} (ha : a ∈ streamingAlgs)
    (h : algParamBad a o = false) (hx : x.length = auxLen a o) :
    slotParamsOk a (decodeParams a o) x = true := by
  cases a with
  | md5 | sha1 | sha256 | sha384 =>
    simpa [slotParamsOk, decodeParams, auxLen] using hx
  | blake2b =>
    have hlen := decodeParams_outlen_le h rfl
    have hpos := defaultOutlen_pos o.param.toNat
    simp only [algParamBad, Bool.or_eq_false_iff, decide_eq_false_iff_not, Nat.not_lt] at h
    simp_all [slotParamsOk, decodeParams, auxLen]
  | blake3 =>
    have hpos := defaultOutlen_pos o.xlen.toNat
    have hlt : defaultOutlen o.xlen.toNat < 4294967296 :=
      Nat.lt_succ_of_le (defaultOutlen_le (by decide) (Nat.le_of_lt_succ o.xlen.isLt))
    have hx : x = [] := by simpa [auxLen] using hx
    simp [slotParamsOk, decodeParams, hpos, hx, hlt]
  | siphash =>
    have hx : x.length = 16 := hx
    simp only [slotParamsOk, decodeParams, hx]
    split
    · rfl
    · split <;> rfl
  | xxh32 | xxh64 =>
    simp only [algParamBad, decide_eq_false_iff_not, Nat.not_lt] at h
    have hm : o.param = 0 ∨ o.param = 1 := by bv_omega
    rcases hm with hm | hm <;> simp_all [slotParamsOk, decodeParams, auxLen]
  | murmur3_32 | murmur3_128 | city64 | city128 | farm64 => exact absurd ha (by decide)

/-! ### Slots -/

theorem slotsOk_iff {s : State} : s.slotsOk = true ↔ ∀ c : BitVec 3, slotOk (s.slot c) = true := by
  simp only [State.slotsOk, List.all_eq_true, Vector.mem_toList_iff, Vector.mem_iff_getElem, State.slot]
  constructor
  · intro h c
    exact h _ ⟨c.toNat, c.isLt, rfl⟩
  · rintro h x ⟨n, hn, rfl⟩
    simpa [Nat.mod_eq_of_lt hn] using h (BitVec.ofNat 3 n)

theorem slotOk_of_params {c : Slot} (hp : slotParamsOk c.alg c.prm c.aux = true)
    (hm : c.msg.length ≤ Config.maxTotal) : slotOk c = true := by simp [slotOk, hp, hm]

/-- A slot in use is legal in its parameters and its length (R41, R148). -/
theorem slotOk_active {c : Slot} (h : slotOk c = true) (ha : c.state = .active) :
    slotParamsOk c.alg c.prm c.aux = true ∧ c.msg.length ≤ Config.maxTotal := by
  simpa [slotOk, ha] using h

theorem slot_commit_none {s : State} {e : Effect} (h : e.slot = none) (c : BitVec 3) :
    (s.commit e).slot c = s.slot c := by
  simp [State.slot, h, slotsAfter]

theorem slot_commit_some {s : State} {e : Effect} {d : BitVec 3} {x : Slot} (h : e.slot = some (d, x))
    (c : BitVec 3) : (s.commit e).slot c = if c = d then x else s.slot c := by
  simp only [State.slot, commit_slots, h, slotsAfter, Vector.getElem_set, eq_comm (a := d.toNat),
    BitVec.toNat_inj]

end Sys2Proof.Machine
end

section
/-! What a command can do, said once: the shared operation behind each command, the effect it leaves when it does
not fault (`OkCase`), and the store, the slot, MATCH and the target of that effect. -/

namespace Sys2Proof.Machine

open Claims

/-! ### The commands by operation -/

/-- A jump that is taken (R410 to R412). -/
abbrev takesJump (i : Instr) (s : State) : Prop :=
  i.op = .jump ∨ (i.op = .jmatch ∧ s.matched = true) ∨ (i.op = .jnmatch ∧ s.matched = false)

/-- The operations that store a result at DST (R83). -/
abbrev storeOps : List Op := [.hash, .final, .rotl, .rotr, .bswap, .mul128]

/-- The shared operation that gives a command its effect, by the command's operation and algorithm. -/
inductive EffectCase (i : Instr) (s : State) : Prop
  | hash (a : Alg) (hop : i.op = .hash) (halg : i.alg = some a)
      (heff : effectOf i s = hashEffect a i.operands s)
  | verify (a : Alg) (hop : i.op = .verify) (halg : i.alg = some a)
      (heff : effectOf i s = verifyEffect a i.operands s)
  | init (a : Alg) (hop : i.op = .init) (halg : i.alg = some a) (hstr : a ∈ streamingAlgs)
      (heff : effectOf i s = initEffect a i.operands s)
  | update (a : Alg) (hop : i.op = .update) (halg : i.alg = some a)
      (heff : effectOf i s = updateEffect a i.operands s)
  | final (a : Alg) (hop : i.op = .final) (halg : i.alg = some a)
      (heff : effectOf i s = finalEffect a i.operands s)
  | rotate (rot : {w : Nat} → BitVec w → Nat → BitVec w) (hop : i.op = .rotl ∨ i.op = .rotr)
      (heff : effectOf i s = rotateEffect i.op rot i.operands s)
  | bswap (hop : i.op = .bswap) (heff : effectOf i s = bswapEffect i.operands s)
  | mul128 (hop : i.op = .mul128) (heff : effectOf i s = mul128Effect i.operands s)
  | jump (taken : Bool) (hop : i.op ∈ [Op.jump, .jmatch, .jnmatch])
      (htaken : taken = decide (takesJump i s))
      (heff : effectOf i s = jumpEffect i.op taken i.operands)
  | nop (hop : i.op = .nop) (heff : effectOf i s = plainEffect .nop {} i.operands)
  | stop (hop : i.op = .stop) (heff : effectOf i s = plainEffect .stop { stop := true } i.operands)

theorem effectCase (i : Instr) (s : State) : EffectCase i s := by
  cases i with
  | hashMd5 | hashSha1 | hashSha256 | hashSha384 | hashBlake2b | hashBlake3 | hashSiphash
  | hashMurmur3_32 | hashMurmur3_128 | hashXxh32 | hashXxh64 | hashCity64 | hashCity128 | hashFarm64 =>
    exact .hash _ rfl rfl rfl
  | verifyMd5 | verifySha1 | verifySha256 | verifySha384 | verifyBlake2b | verifyBlake3 =>
    exact .verify _ rfl rfl rfl
  | initMd5 | initSha1 | initSha256 | initSha384 | initBlake2b | initBlake3 | initSiphash | initXxh32
  | initXxh64 => exact .init _ rfl rfl (by decide) rfl
  | updateMd5 | updateSha1 | updateSha256 | updateSha384 | updateBlake2b | updateBlake3 | updateSiphash
  | updateXxh32 | updateXxh64 => exact .update _ rfl rfl rfl
  | finalMd5 | finalSha1 | finalSha256 | finalSha384 | finalBlake2b | finalBlake3 | finalSiphash
  | finalXxh32 | finalXxh64 => exact .final _ rfl rfl rfl
  | rotl => exact .rotate rotl (.inl rfl) rfl
  | rotr => exact .rotate rotr (.inr rfl) rfl
  | bswap => exact .bswap rfl rfl
  | mul128 => exact .mul128 rfl rfl
  | jump o => exact .jump true (by simp [Instr.op]) (by simp [takesJump, Instr.op]) rfl
  | jmatch o => exact .jump s.matched (by simp [Instr.op]) (by simp [takesJump, Instr.op]) rfl
  | jnmatch o => exact .jump (!s.matched) (by simp [Instr.op]) (by simp [takesJump, Instr.op]) rfl
  | nop => exact .nop rfl rfl
  | stop => exact .stop rfl rfl

/-! ### The store of a command -/

theorem inRange_iff {s : State} {a n : Nat} : s.inRange a n = true ↔ InRange s a n := by
  simp [State.inRange, InRange]

theorem primRanges_iff {o : Operands} {s : State} {n : Nat} :
    primRanges o s n = true ↔ s.inRange o.src.toNat n = true ∧ s.inRange o.dst.toNat n = true := by
  simp [primRanges]

/-- The operand width of R114, read off PARAM or computed from its top bits. -/
theorem opWidth_eq_width (o : Operands) : opWidth o = width o := by
  have h : o.param.toNat < 256 := o.param.isLt
  have hc : widthCode o = 0 ∨ widthCode o = 1 ∨ widthCode o = 2 ∨ widthCode o = 3 := by
    unfold widthCode; omega
  unfold opWidth width
  rcases hc with hc | hc | hc | hc
  all_goals rw [hc]; unfold widthCode at hc
  · change 8 = _
    rw [if_pos (by omega)]
  · change 16 = _
    rw [if_neg (by omega), if_pos (by omega)]
  · change 32 = _
    rw [if_neg (by omega), if_neg (by omega), if_pos (by omega)]
  · change 64 = _
    rw [if_neg (by omega), if_neg (by omega), if_neg (by omega)]

/-- The two tables of output lengths agree (R145, R146). -/
theorem outLen_decodeParams (a : Alg) (o : Operands) :
    outLen a (decodeParams a o) = outBytes (algCode a) o := by
  cases a with
  | blake2b => simp [outLen, decodeParams, outBytes, algCode, defaultOutlen, ← BitVec.toNat_inj]
  | blake3 => simp [outLen, decodeParams, outBytes, algCode, defaultOutlen, ← BitVec.toNat_inj]
  | _ => rfl

theorem storedBytes_hash {i : Instr} {a : Alg} (hop : i.op = .hash) (halg : i.alg = some a) (s : State) :
    storedBytes i s = outLen a (decodeParams a i.operands) := by
  simp only [storedBytes, hop, halg, outLen_decodeParams]

theorem storedBytes_final {i : Instr} (hop : i.op = .final) (s : State) :
    storedBytes i s = outLen (s.slot i.operands.ctx).alg (s.slot i.operands.ctx).prm := by
  simp only [storedBytes, hop]

theorem storedBytes_mul128 {i : Instr} (hop : i.op = .mul128) (s : State) : storedBytes i s = 32 := by
  simp only [storedBytes, hop]

theorem storedBytes_width {i : Instr} (hop : i.op ∈ [Op.rotl, .rotr, .bswap]) (s : State) :
    storedBytes i s = opBytes i.operands := by
  simp only [List.mem_cons, List.not_mem_nil, or_false] at hop
  rcases hop with hop | hop | hop <;> simp only [storedBytes, hop, opBytes, opWidth_eq_width]

/-- What a command that does not fault can do, by its operation: the value it stores at DST (R83), the slot it
writes (R40), MATCH (R37), its jump (R34), the end of the run (R414). -/
inductive OkCase (i : Instr) (s : State) : Effect → Prop
  | result (bs : Bytes) (hop : i.op ∈ [Op.hash, .rotl, .rotr, .bswap, .mul128])
      (hlen : bs.length = storedBytes i s)
      (hrange : s.inRange i.operands.dst.toNat (storedBytes i s) = true) :
      OkCase i s { store := some (i.operands.dst.toNat, bs) }
  | verify (b : Bool) (hop : i.op = .verify) : OkCase i s { flag := some b }
  | slot (x : Slot) (hop : i.op = .init ∨ i.op = .update) (hx : s.slotsOk = true → slotOk x = true) :
      OkCase i s { slot := some (i.operands.ctx, x) }
  | final (bs : Bytes) (x : Slot) (hop : i.op = .final)
      (hlen : s.slotsOk = true → bs.length = storedBytes i s)
      (hrange : s.inRange i.operands.dst.toNat (storedBytes i s) = true)
      (hx : s.slotsOk = true → slotOk x = true) :
      OkCase i s { store := some (i.operands.dst.toNat, bs), slot := some (i.operands.ctx, x) }
  | jump (hop : i.op ∈ [Op.jump, .jmatch, .jnmatch]) :
      OkCase i s { target := if takesJump i s then some i.operands.src else none }
  | nop (hop : i.op = .nop) : OkCase i s {}
  | stop (hop : i.op = .stop) : OkCase i s { stop := true }

theorem okCase_of_ok {i : Instr} {s : State} {e : Effect} (h : effectOf i s = .ok e) : OkCase i s e := by
  have hctx : s.slotsOk = true → slotOk (s.slot i.operands.ctx) = true := fun hs => slotsOk_iff.1 hs _
  cases effectCase i s with
  | hash a hop halg heff =>
    obtain ⟨hfields, hranges, rfl⟩ := hashEffect_ok.1 (heff ▸ h)
    have hout := storedBytes_hash hop halg s
    have hlen : (hashResult a i.operands s).length = outLen a (decodeParams a i.operands) :=
      length_digest (decodeParams_outlen_le (algParamBad_of_fieldFault (by decide) hfields)) _ _
    exact .result _ (by simp [hop]) (hlen.trans hout.symm) (hout ▸ (hashRanges_iff.1 hranges).2.2)
  | verify a hop halg heff =>
    obtain ⟨-, -, rfl⟩ := verifyEffect_ok.1 (heff ▸ h)
    exact .verify _ hop
  | init a hop halg hstr heff =>
    obtain ⟨hfields, -, rfl⟩ := initEffect_ok.1 (heff ▸ h)
    have hprm := slotParamsOk_decodeParams hstr (algParamBad_of_fieldFault (by decide) hfields)
      (State.length_memRead s i.operands.aux.toNat _)
    exact .slot _ (.inl hop) fun _ => slotOk_of_params hprm (Nat.zero_le _)
  | update a hop halg heff =>
    obtain ⟨-, hslot, -, hlen, rfl⟩ := updateEffect_ok.1 (heff ▸ h)
    have hactive := (slotFault_eq_none.1 hslot).1
    exact .slot _ (.inr hop) fun hs =>
      slotOk_of_params (slotOk_active (hctx hs) hactive).1 (by simpa using hlen)
  | final a hop halg heff =>
    obtain ⟨-, hslot, hrange, rfl⟩ := finalEffect_ok.1 (heff ▸ h)
    have hactive := (slotFault_eq_none.1 hslot).1
    have hout := storedBytes_final hop s
    refine .final _ _ hop (fun hs => ?_) (hout ▸ hrange) fun hs => ?_
    · exact (length_digest (slotParamsOk_outlen_le (slotOk_active (hctx hs) hactive).1) _ _).trans hout.symm
    · obtain ⟨hprm, hmsg⟩ := slotOk_active (hctx hs) hactive
      exact slotOk_of_params hprm hmsg
  | rotate rot hop heff =>
    obtain ⟨-, hranges, rfl⟩ := rotateEffect_ok.1 (heff ▸ h)
    have hout := storedBytes_width (i := i) (by rcases hop with hop | hop <;> simp [hop]) s
    exact .result _ (by rcases hop with hop | hop <;> simp [hop]) ((length_bytesLE _).trans hout.symm)
      (hout ▸ (primRanges_iff.1 hranges).2)
  | bswap hop heff =>
    obtain ⟨-, hranges, rfl⟩ := bswapEffect_ok.1 (heff ▸ h)
    have hout := storedBytes_width (i := i) (by simp [hop]) s
    exact .result _ (by simp [hop]) (by simp [hout]) (hout ▸ (primRanges_iff.1 hranges).2)
  | mul128 hop heff =>
    obtain ⟨-, -, -, hrange, rfl⟩ := mul128Effect_ok.1 (heff ▸ h)
    have hout := storedBytes_mul128 hop s
    exact .result _ (by simp [hop]) ((length_bytesLE _).trans hout.symm) (hout.symm ▸ hrange)
  | jump taken hop htaken heff =>
    obtain ⟨-, -, rfl⟩ := jumpEffect_ok.1 (heff ▸ h)
    simpa [htaken] using OkCase.jump (s := s) hop
  | nop hop heff =>
    obtain ⟨-, rfl⟩ := plainEffect_ok.1 (heff ▸ h)
    exact .nop hop
  | stop hop heff =>
    obtain ⟨-, rfl⟩ := plainEffect_ok.1 (heff ▸ h)
    exact .stop hop

/-- Only HASH, FINAL and the primitives store, their result at DST, inside DMEM (R83). -/
theorem OkCase.store_eq {i : Instr} {s : State} {e : Effect} (h : OkCase i s e) (hs : s.slotsOk = true) :
    (i.op ∈ storeOps ∧ s.inRange i.operands.dst.toNat (storedBytes i s) = true ∧
      ∃ bs, e.store = some (i.operands.dst.toNat, bs) ∧ bs.length = storedBytes i s) ∨
    (i.op ∉ storeOps ∧ e.store = none) := by
  cases h with
  | result bs hop hlen hrange =>
    have hmem : i.op ∈ storeOps := by revert hop; cases i.op <;> decide
    exact .inl ⟨hmem, hrange, bs, rfl, hlen⟩
  | final bs x hop hlen hrange hx => exact .inl ⟨by simp [hop], hrange, bs, rfl, hlen hs⟩
  | verify b hop | nop hop | stop hop => exact .inr ⟨by simp [hop], rfl⟩
  | slot x hop hx => exact .inr ⟨by rcases hop with hop | hop <;> simp [hop], rfl⟩
  | jump hop =>
    have hmem : i.op ∉ storeOps := by revert hop; cases i.op <;> decide
    exact .inr ⟨hmem, rfl⟩

/-- Only INIT, UPDATE and FINAL write a slot, the one that CTX names, and they leave it legal (R40, R41). -/
theorem OkCase.slot_eq {i : Instr} {s : State} {e : Effect} (h : OkCase i s e) :
    ((i.op = .init ∨ i.op = .update ∨ i.op = .final) ∧
      ∃ x, e.slot = some (i.operands.ctx, x) ∧ (s.slotsOk = true → slotOk x = true)) ∨
    e.slot = none := by
  cases h with
  | slot x hop hx => exact .inl ⟨hop.imp_right .inl, x, rfl, hx⟩
  | final bs x hop hlen hrange hx => exact .inl ⟨.inr (.inr hop), x, rfl, hx⟩
  | result | verify | jump | nop | stop => exact .inr rfl

/-- Only VERIFY writes MATCH (R37). -/
theorem OkCase.flag_eq {i : Instr} {s : State} {e : Effect} (h : OkCase i s e) :
    i.op = .verify ∨ e.flag = none := by
  cases h with
  | verify b hop => exact .inl hop
  | result | slot | final | jump | nop | stop => exact .inr rfl

/-- Only a taken jump has a target (R34). -/
theorem OkCase.target_eq {i : Instr} {s : State} {e : Effect} (h : OkCase i s e) :
    e.target = if takesJump i s then some i.operands.src else none := by
  cases h with
  | jump => rfl
  | result bs hop =>
    have hnot : ¬takesJump i s := by revert hop; unfold takesJump; cases i.op <;> simp
    rw [if_neg hnot]
  | slot x hop => rw [if_neg (by rcases hop with hop | hop <;> simp [takesJump, hop])]
  | verify b hop | final bs x hop | nop hop | stop hop => rw [if_neg (by simp [takesJump, hop])]

/-- The model's DST range of a command (log 8) is that of the statements: `storedBytes` bytes from DST on for the
operations that store, nothing for the others. -/
theorem storeRange_eq (i : Instr) (s : State) :
    storeRange i s =
      if i.op ∈ storeOps then addrRange i.operands.dst.toNat (storedBytes i s) else [] := by
  cases effectCase i s with
  | hash a hop halg => simp [storeRange, storedBytes_hash hop halg, hop, halg]
  | final a hop halg => simp [storeRange, storedBytes_final hop, hop]
  | rotate rot hop => rcases hop with hop | hop <;> simp [storeRange, storedBytes_width, hop]
  | bswap hop => simp [storeRange, storedBytes_width, hop]
  | mul128 hop => simp [storeRange, storedBytes_mul128, hop]
  | verify a hop | init a hop | update a hop | nop hop | stop hop => simp [storeRange, hop]
  | jump taken hop =>
    have hmem : i.op ∉ storeOps := by revert hop; cases i.op <;> decide
    rw [if_neg hmem]
    simp only [List.mem_cons, List.not_mem_nil, or_false] at hop
    rcases hop with hop | hop | hop <;> simp only [storeRange, hop]

end Sys2Proof.Machine
end

section
/-! What a step of the core and an event of the system can do, said once (`StepCase`, `EventCase`), and the host's
registers by name. -/

namespace Sys2Proof.Machine

/-! ### One step of the core -/

/-- What a step can do: nothing while idle; the fault of a pending abort; the fault of the fetch, the decoding
or the command; the effect of the command (R434, R456). -/
inductive StepCase (s : State) : State → Prop
  | idle (hb : s.busy = false) : StepCase s s
  | abort (hb : s.busy = true) (ha : s.abortPend = true) : StepCase s (s.raiseFault .abort)
  | fault (c : ErrCode) (hb : s.busy = true) (ha : s.abortPend = false) :
      StepCase s (s.settle.raiseFault c)
  | done (i : Instr) (e : Effect) (hb : s.busy = true) (ha : s.abortPend = false)
      (hi : s.settle.command = .ok i) (he : OkCase i s.settle e) : StepCase s (s.settle.commit e)

theorem stepCase_of_step {s t : State} (h : step s = .next t) : StepCase s t := by
  rcases step_next h with ⟨hb, rfl⟩ | ⟨hb, ha, rfl⟩ | ⟨hb, ha, c, -, rfl⟩ | ⟨hb, ha, i, hi, hexec⟩
  · exact .idle hb
  · exact .abort hb ha
  · exact .fault c hb ha
  · rcases exec_next hexec with ⟨e, he, rfl⟩ | ⟨c, -, rfl⟩
    · exact .done i e hb ha hi (okCase_of_ok he)
    · exact .fault c hb ha

/-- A step writes ERRPTR at a fault or an abort, with the address of the command, and keeps it otherwise (R50). -/
theorem StepCase.errPtr_eq {s t : State} (h : StepCase s t) :
    (s.busy = true ∧ t.err = true ∧ t.errPtr = s.cmdPtr) ∨ (t.err = s.err ∧ t.errPtr = s.errPtr) := by
  cases h with
  | idle => exact .inr ⟨rfl, rfl⟩
  | abort hb => exact .inl ⟨hb, rfl, rfl⟩
  | fault c hb => exact .inl ⟨hb, rfl, by simp⟩
  | done i e => exact .inr ⟨by simp, by simp⟩

/-- A step changes MATCH only as a VERIFY (R37). -/
theorem StepCase.matched_eq {s t : State} (h : StepCase s t) :
    (s.busy = true ∧ ∃ i, s.settle.command = .ok i ∧ i.op = .verify) ∨ t.matched = s.matched := by
  cases h with
  | idle | abort => exact .inr rfl
  | fault c => exact .inr (by simp)
  | done i e hb ha hi he =>
    rcases he.flag_eq with hop | hflag
    · exact .inl ⟨hb, i, hi, hop⟩
    · exact .inr (by simp [hflag])

/-- A step never sets the abort latch, and drops it when it takes the abort (R44). -/
theorem StepCase.abortPend_eq {s t : State} (h : StepCase s t) :
    (s.busy = false ∧ t = s) ∨ t.abortPend = false := by
  cases h with
  | idle hb => exact .inl ⟨hb, rfl⟩
  | abort | fault => exact .inr rfl
  | done i e hb ha => exact .inr (by simp [ha])

theorem settle_of_clean {s : State} (h : s.clean = true) : s.settle = s :=
  settle_clean s (by simpa [State.clean] using h)

/-- The fault of a bad CMDPTR is taken in the state as it is (R35, R432). -/
theorem step_fetch_error {s : State} {c : ErrCode} (hb : s.busy = true) (ha : s.abortPend = false)
    (hc : s.clean = true) (hf : s.fetch = .error c) : step s = .next (s.raiseFault c) := by
  have hsettle := settle_of_clean hc
  have hcmd : s.settle.command = .error c := command_error.2 (.inl (hsettle.symm ▸ hf))
  rw [step_error hb ha hcmd, hsettle]

/-- A step runs the command that the bytes at CMDPTR decode to (R30, R90). -/
theorem step_decoded {s : State} {i : Instr} (hb : s.busy = true) (ha : s.abortPend = false)
    (halign : s.cmdPtr.toNat % 32 = 0) (hrange : s.cmdPtr.toNat + 32 ≤ s.memSize)
    (hi : decode (s.settle.memRead s.cmdPtr.toNat 32) = .ok i) : step s = exec i s.settle := by
  have hfetch : s.settle.fetch = .ok (s.settle.memRead s.cmdPtr.toNat 32) :=
    fetch_ok.2 ⟨by simpa using halign, by simpa using hrange, by simp⟩
  exact step_exec hb ha (command_ok.2 ⟨_, hfetch, hi⟩)

/-! ### One event of the system -/

/-- The bytes a host write spoils while the core is busy (R492). -/
def State.spoil (s : State) (a n : Nat) : State :=
  { s with spoiled := (addrRange a n).foldl (fun l x => insertAddr x l) s.spoiled }

theorem mem_insertAddr {a x : Nat} {l : List Nat} : x ∈ insertAddr a l ↔ x = a ∨ x ∈ l := by
  induction l with
  | nil => simp [insertAddr]
  | cons y ys ih =>
    unfold insertAddr
    split
    · simp
    · split
      · next heq => simp [heq]
      · simp [ih, or_left_comm]

theorem mem_foldl_insertAddr {x : Nat} (as l : List Nat) :
    x ∈ as.foldl (fun l a => insertAddr a l) l ↔ x ∈ as ∨ x ∈ l := by
  induction as generalizing l with
  | nil => simp
  | cons a as ih => simp [ih, mem_insertAddr, or_assoc, or_left_comm]

theorem mem_spoiled_spoil {s : State} {a n x : Nat} :
    x ∈ (s.spoil a n).spoiled ↔ (a ≤ x ∧ x < a + n) ∨ x ∈ s.spoiled := by
  simp [State.spoil, mem_foldl_insertAddr]

theorem hostReadReg_ok {off : Nat} (h : regAccessOk off 4 = true) (s : State) :
    hostReadReg off 4 s = .next (s.regValue off,
      if off = 0x10 && s.busy then { s with polls := s.polls + 1 } else s) := by
  simp [hostReadReg, h]

/-- A register other than CMDPTR is read without a trace (R80). -/
theorem hostReadReg_of_ne {off : Nat} (h : regAccessOk off 4 = true) (hoff : off ≠ 0x10) (s : State) :
    hostReadReg off 4 s = .next (s.regValue off, s) := by
  simp [hostReadReg_ok h, hoff]

/-- A register that is not CTRL, STATUS or CMDPTR ignores a write (R39, R45, R46, R50). -/
theorem hostWriteReg_ignored {off : Nat} (h : regAccessOk off 4 = true)
    (hoff : off ≠ 0x08 ∧ off ≠ 0x0C ∧ off ≠ 0x10) (v : Word) (s : State) :
    hostWriteReg off 4 v s = .next s := by
  obtain ⟨hctrl, hstatus, hptr⟩ := hoff
  simp [hostWriteReg, h, hctrl, hstatus, hptr]

theorem hostWriteReg_ctrl (v : Word) (s : State) : hostWriteReg 0x08 4 v s = .next (s.writeCtrl v) := rfl

theorem hostWriteReg_status (v : Word) (s : State) : hostWriteReg 0x0C 4 v s = .next (s.writeStatus v) := rfl

theorem hostWriteReg_cmdPtr (v : Word) (s : State) : hostWriteReg 0x10 4 v s = .next (s.writeCmdPtr v) := rfl

/-- What an event can do. -/
inductive EventCase (s : State) : Event → State → Prop
  | core (t : State) (h : StepCase s t) : EventCase s .core t
  | readReg (off size : Nat) : EventCase s (.readReg off size) s
  | poll (off size : Nat) (hb : s.busy = true) :
      EventCase s (.readReg off size) { s with polls := s.polls + 1 }
  | writeCtrl (v : Word) : EventCase s (.writeReg 0x08 4 v) (s.writeCtrl v)
  | writeStatus (v : Word) : EventCase s (.writeReg 0x0C 4 v) (s.writeStatus v)
  | writeCmdPtr (v : Word) : EventCase s (.writeReg 0x10 4 v) (s.writeCmdPtr v)
  | writeIgnored (off size : Nat) (v : Word) : EventCase s (.writeReg off size v) s
  | readMemBusy (a n : Nat) (hb : s.busy = true) : EventCase s (.readMem a n) { s with draws := s.draws + 1 }
  | readMemIdle (a n : Nat) (hb : s.busy = false) : EventCase s (.readMem a n) s.settle
  | writeMemBusy (a : Nat) (bs : Bytes) (hb : s.busy = true) (hr : s.inRange a bs.length = true) :
      EventCase s (.writeMem a bs) (s.spoil a bs.length)
  | writeMemIdle (a : Nat) (bs : Bytes) (hb : s.busy = false) (hr : s.inRange a bs.length = true) :
      EventCase s (.writeMem a bs) (s.hostStore a bs)
  | reset : EventCase s .reset s.platformReset

/-- The state behind an answer. -/
theorem outcomeState_next {α : Type} {o : Host.Outcome (α × State) Fault Refusal} {t : State}
    (h : outcomeState o = .next t) : ∃ x, o = .next (x, t) := by
  cases o with
  | next r => cases h; exact ⟨r.1, rfl⟩
  | fault | refused => cases h

theorem eventCase_readReg {off size : Nat} {x : Word} {s t : State}
    (h : hostReadReg off size s = .next (x, t)) : EventCase s (.readReg off size) t := by
  unfold hostReadReg at h
  split at h
  · cases h
  · simp only [Host.Outcome.next.injEq, Prod.mk.injEq] at h
    rw [← h.2]
    split
    · next hpoll => exact .poll off size (by simp_all)
    · exact .readReg off size

theorem eventCase_writeReg {off size : Nat} {v : Word} {s t : State}
    (h : hostWriteReg off size v s = .next t) : EventCase s (.writeReg off size v) t := by
  unfold hostWriteReg at h
  split at h
  · cases h
  · next hacc =>
    have hsize : size = 4 := by simp_all [regAccessOk]
    subst hsize
    split at h
    · next hoff => subst hoff; cases h; exact .writeCtrl v
    · split at h
      · next hoff => subst hoff; cases h; exact .writeStatus v
      · split at h
        · next hoff => subst hoff; cases h; exact .writeCmdPtr v
        · cases h; exact .writeIgnored off 4 v

theorem eventCase_readMem {a n : Nat} {bs : Bytes} {s t : State}
    (h : hostReadMem a n s = .next (bs, t)) : EventCase s (.readMem a n) t := by
  unfold hostReadMem at h
  split at h
  · cases h
  · split at h
    · next hb => cases h; exact .readMemBusy a n hb
    · next hb => cases h; exact .readMemIdle a n (by simpa using hb)

theorem eventCase_writeMem {a : Nat} {bs : Bytes} {s t : State} (h : hostWriteMem a bs s = .next t) :
    EventCase s (.writeMem a bs) t := by
  unfold hostWriteMem at h
  split at h
  · cases h
  · next hr =>
    have hr : s.inRange a bs.length = true := by simpa using hr
    split at h
    · next hb => cases h; exact .writeMemBusy a bs hb hr
    · next hb => cases h; exact .writeMemIdle a bs (by simpa using hb) hr

theorem eventCase_of_sysStep {e : Event} {s t : State} (h : sysStep e s = .next t) : EventCase s e t := by
  cases e with
  | core => exact .core t (stepCase_of_step h)
  | readReg off size =>
    obtain ⟨x, hx⟩ := outcomeState_next h
    exact eventCase_readReg hx
  | writeReg off size v => exact eventCase_writeReg h
  | readMem a n =>
    obtain ⟨bs, hbs⟩ := outcomeState_next h
    exact eventCase_readMem hbs
  | writeMem a bs => exact eventCase_writeMem h
  | reset => cases h; exact .reset

/-! ### The register views -/

/-- A write of START to an idle core (R51). -/
theorem writeCtrl_start {s : State} {v : Word} (hb : s.busy = false) (hv : v.getLsbD 0 = true) :
    s.writeCtrl v =
      { s with irqEn := v.getLsbD 2, busy := true, done := false, err := false, errCode := 0 } := by
  rw [State.writeCtrl, if_neg (by rw [hb]; decide), if_pos hv]
  rfl

/-- A write without START to an idle core only stores IRQ_EN (R47, R52). -/
theorem writeCtrl_idle {s : State} {v : Word} (hb : s.busy = false) (hv : v.getLsbD 0 = false) :
    s.writeCtrl v = { s with irqEn := v.getLsbD 2 } := by
  rw [State.writeCtrl, if_neg (by rw [hb]; decide), if_neg (by rw [hv]; decide)]

/-- A write to a running core stores IRQ_EN and latches ABORT (R52). -/
theorem writeCtrl_running {s : State} {v : Word} (hb : s.busy = true) :
    s.writeCtrl v = { s with irqEn := v.getLsbD 2, abortPend := s.abortPend || v.getLsbD 1 } := by
  rw [State.writeCtrl, if_pos hb]
  cases v.getLsbD 1 <;> simp

/-- STATUS below ERRCODE: the four flags (R48). -/
def State.statusFlags (s : State) : Word :=
  bitAt s.matched 3 ||| bitAt s.err 2 ||| bitAt s.done 1 ||| bitAt s.busy 0

theorem status_eq (s : State) : s.status = (s.errCode.setWidth 32 <<< 8) ||| s.statusFlags := by
  simp only [State.status, State.statusFlags, BitVec.or_assoc]

theorem toNat_statusFlags (s : State) :
    s.statusFlags.toNat = (if s.matched then 8 else 0) + (if s.err then 4 else 0) +
      (if s.done then 2 else 0) + (if s.busy then 1 else 0) := by
  unfold State.statusFlags
  cases s.matched <;> cases s.err <;> cases s.done <;> cases s.busy <;> rfl

theorem toNat_statusFlags_lt (s : State) : s.statusFlags.toNat < 2 ^ 8 := by
  unfold State.statusFlags
  cases s.matched <;> cases s.err <;> cases s.done <;> cases s.busy <;> decide

/-- STATUS as a number: ERRCODE above the flags, which are too small to reach it (R48). -/
theorem status_toNat (s : State) :
    s.status.toNat = 256 * s.errCode.toNat + (if s.matched then 8 else 0) + (if s.err then 4 else 0) +
      (if s.done then 2 else 0) + (if s.busy then 1 else 0) := by
  have hcode : (s.errCode.setWidth 32 <<< 8).toNat = s.errCode.toNat <<< 8 := by
    have h := s.errCode.isLt
    rw [BitVec.toNat_shiftLeft, BitVec.toNat_setWidth, Nat.shiftLeft_eq, Nat.shiftLeft_eq]
    omega
  rw [status_eq, BitVec.toNat_or, hcode, ← Nat.shiftLeft_add_eq_or_of_lt (toNat_statusFlags_lt s),
    Nat.shiftLeft_eq, toNat_statusFlags]
  omega

theorem ctrl_reserved (s : State) : s.ctrl &&& ~~~0x00000004#32 = 0 := by
  unfold State.ctrl
  cases s.irqEn <;> rfl

/-- Only bits 15:8 and 3:0 of STATUS are defined (R48). -/
theorem status_reserved (s : State) : s.status &&& ~~~0x0000FF0F#32 = 0 := by
  have hcode : (s.errCode.setWidth 32 <<< 8) &&& ~~~0x0000FF0F#32 = 0#32 := by
    have hmask : ∀ k < 32, 8 ≤ k → k < 16 → (~~~0x0000FF0F#32).getLsbD k = false := by decide
    refine BitVec.eq_of_getLsbD_eq fun k hk => ?_
    rw [BitVec.getLsbD_and, BitVec.getLsbD_zero, BitVec.getLsbD_shiftLeft]
    by_cases hlow : k < 8
    · rw [decide_eq_true hlow, Bool.not_true, Bool.and_false, Bool.false_and, Bool.false_and]
    · by_cases hhigh : k < 16
      · rw [hmask k hk (by omega) hhigh, Bool.and_false]
      · rw [BitVec.getLsbD_setWidth, BitVec.getLsbD_of_ge s.errCode _ (by omega), Bool.and_false,
          Bool.and_false, Bool.false_and]
  have hflags : s.statusFlags &&& ~~~0x0000FF0F#32 = 0#32 := by
    unfold State.statusFlags
    cases s.matched <;> cases s.err <;> cases s.done <;> cases s.busy <;> rfl
  calc s.status &&& ~~~0x0000FF0F#32
      = 0#32 ||| 0#32 := by rw [status_eq, BitVec.and_or_distrib_right, hcode, hflags]
    _ = 0 := rfl

end Sys2Proof.Machine
end

section
/-! The invariant: its four parts, and that everything a step or an event does keeps them. -/

namespace Sys2Proof.Machine

/-! ### The parts of the invariant -/

theorem inv_iff {s : State} :
    s.inv = true ↔ s.memOk = true ∧ s.statusOk = true ∧ s.slotsOk = true ∧ s.spoiledOk = true := by
  simp [State.inv, and_assoc]

theorem memOk_iff {s : State} :
    s.memOk = true ↔
      Config.legalMemSize s.memSize = true ∧ Memory.wf s.dmem = true ∧ Memory.below s.memSize s.dmem := by
  simp [State.memOk, Memory.below, and_assoc]

/-- The clauses of R48, R431 and R44 on STATUS and the abort latch. -/
theorem statusOk_iff {s : State} :
    s.statusOk = true ↔
      (s.busy = true → s.done = false ∧ s.err = false) ∧ (s.done = true → s.err = false) ∧
      (s.err = true → 1 ≤ s.errCode.toNat ∧ s.errCode.toNat ≤ 12) ∧ (s.err = false → s.errCode = 0) ∧
      (s.abortPend = true → s.busy = true) := by
  unfold State.statusOk
  cases s.busy <;> cases s.done <;> cases s.err <;> cases s.abortPend <;> simp

theorem spoiledOk_iff {s : State} : s.spoiledOk = true ↔ ∀ a ∈ s.spoiled, a < s.memSize := by
  simp [State.spoiledOk]

/-- A change of registers alone keeps the invariant if it keeps STATUS consistent. -/
theorem inv_of_registers {s t : State} (h : s.inv = true) (hsize : t.memSize = s.memSize)
    (hdmem : t.dmem = s.dmem) (hslots : t.slots = s.slots) (hspoiled : t.spoiled = s.spoiled)
    (hstatus : t.statusOk = true) : t.inv = true := by
  obtain ⟨hmem, -, hctx, hspoil⟩ := inv_iff.1 h
  exact inv_iff.2 ⟨by simpa [State.memOk, hsize, hdmem] using hmem, hstatus,
    by simpa [State.slotsOk, hslots] using hctx, by simpa [State.spoiledOk, hsize, hspoiled] using hspoil⟩

/-! ### What keeps the invariant -/

theorem errNumber_bounds (c : ErrCode) : 1 ≤ (errNumber c).toNat ∧ (errNumber c).toNat ≤ 12 := by
  cases c <;> decide

theorem statusOk_raiseFault {s : State} (h : s.statusOk = true) (hb : s.busy = true) (c : ErrCode) :
    (s.raiseFault c).statusOk = true := by
  have hdone := ((statusOk_iff.1 h).1 hb).1
  simp [statusOk_iff, hdone, errNumber_bounds]

theorem inv_raiseFault {s : State} (h : s.inv = true) (hb : s.busy = true) (c : ErrCode) :
    (s.raiseFault c).inv = true := by
  obtain ⟨-, hstatus, -, -⟩ := inv_iff.1 h
  exact inv_of_registers h rfl rfl rfl rfl (statusOk_raiseFault hstatus hb c)

theorem settle_dmem (s : State) : s.settle.dmem = Memory.drawAll s.dmem s.draws s.spoiled := by
  unfold State.settle
  split <;> simp_all [Memory.drawAll]

@[simp] theorem settle_statusOk (s : State) : s.settle.statusOk = s.statusOk := by simp [State.statusOk]

@[simp] theorem settle_slotsOk (s : State) : s.settle.slotsOk = s.slotsOk := by simp [State.slotsOk]

theorem inv_settle {s : State} (h : s.inv = true) : s.settle.inv = true := by
  obtain ⟨hmem, hstatus, hslots, hspoil⟩ := inv_iff.1 h
  obtain ⟨hsize, hwf, hbelow⟩ := memOk_iff.1 hmem
  refine inv_iff.2 ⟨memOk_iff.2 ⟨by simpa using hsize, ?_, ?_⟩, by simpa using hstatus,
    by simpa using hslots, by simpa [State.spoiledOk] using hspoil⟩
  · exact settle_dmem s ▸ Memory.wf_drawAll _ _ _ hwf
  · rw [settle_dmem, settle_memSize]
    exact Memory.below_drawAll _ (spoiledOk_iff.1 hspoil) hbelow

/-- A store in range keeps every listed address inside DMEM, the empty one too (R71, R82). -/
theorem below_writeBytes_of_inRange {s : State} {a : Nat} {bs : Bytes} (hr : s.inRange a bs.length = true)
    (h : Memory.below s.memSize s.dmem) : Memory.below s.memSize (Memory.writeBytes s.dmem a bs) := by
  rcases inRange_iff.1 hr with hnil | hle
  · rw [List.eq_nil_of_length_eq_zero hnil]; exact h
  · exact Memory.below_writeBytes bs hle h

theorem memOk_commit {i : Instr} {s : State} {e : Effect} (hm : s.memOk = true) (hs : s.slotsOk = true)
    (he : OkCase i s e) : (s.commit e).memOk = true := by
  obtain ⟨hsize, hwf, hbelow⟩ := memOk_iff.1 hm
  refine memOk_iff.2 ⟨hsize, Memory.wf_storeOpt _ _ hwf, ?_⟩
  rcases he.store_eq hs with ⟨-, hrange, bs, hstore, hlen⟩ | ⟨-, hstore⟩
  · rw [commit_dmem, hstore]
    exact below_writeBytes_of_inRange (hlen ▸ hrange) hbelow
  · rw [commit_dmem, hstore]
    exact hbelow

theorem slotsOk_commit {i : Instr} {s : State} {e : Effect} (hs : s.slotsOk = true) (he : OkCase i s e) :
    (s.commit e).slotsOk = true := by
  have hall := slotsOk_iff.1 hs
  refine slotsOk_iff.2 fun c => ?_
  rcases he.slot_eq with ⟨-, x, hslot, hx⟩ | hslot
  · rw [slot_commit_some hslot]
    split
    · exact hx hs
    · exact hall c
  · rw [slot_commit_none hslot]; exact hall c

theorem statusOk_commit {s : State} (h : s.statusOk = true) (hb : s.busy = true) (e : Effect) :
    (s.commit e).statusOk = true := by
  obtain ⟨hbusy, -, -, hcode, -⟩ := statusOk_iff.1 h
  obtain ⟨hdone, herr⟩ := hbusy hb
  cases hstop : e.stop <;> simp [statusOk_iff, hb, hdone, herr, hcode herr, hstop]

theorem inv_commit {i : Instr} {s : State} {e : Effect} (h : s.inv = true) (hb : s.busy = true)
    (he : OkCase i s e) : (s.commit e).inv = true := by
  obtain ⟨hmem, hstatus, hslots, hspoil⟩ := inv_iff.1 h
  exact inv_iff.2 ⟨memOk_commit hmem hslots he, statusOk_commit hstatus hb e, slotsOk_commit hslots he, hspoil⟩

theorem inv_of_stepCase {s t : State} (hs : s.inv = true) (h : StepCase s t) : t.inv = true := by
  cases h with
  | idle => exact hs
  | abort hb => exact inv_raiseFault hs hb _
  | fault c hb => exact inv_raiseFault (inv_settle hs) (by simpa using hb) c
  | done i e hb ha hi he => exact inv_commit (inv_settle hs) (by simpa using hb) he

theorem inv_writeCtrl {s : State} (h : s.inv = true) (v : Word) : (s.writeCtrl v).inv = true := by
  obtain ⟨-, hstatus, -, -⟩ := inv_iff.1 h
  refine inv_of_registers h (by simp) (by simp) (by simp) (by simp) ?_
  rw [statusOk_iff] at hstatus ⊢
  simp only [writeCtrl_busy, writeCtrl_done, writeCtrl_err, writeCtrl_errCode, writeCtrl_abortPend]
  cases hb : s.busy <;> cases hv : v.getLsbD 0 <;> simp_all

theorem inv_writeStatus {s : State} (h : s.inv = true) (v : Word) : (s.writeStatus v).inv = true := by
  obtain ⟨-, hstatus, -, -⟩ := inv_iff.1 h
  refine inv_of_registers h (by simp) (by simp) (by simp) (by simp) ?_
  rw [statusOk_iff] at hstatus ⊢
  simp only [writeStatus_busy, writeStatus_done, writeStatus_err, writeStatus_errCode,
    writeStatus_abortPend]
  cases hv : v.getLsbD 2 <;> simp_all

theorem inv_writeCmdPtr {s : State} (h : s.inv = true) (v : Word) : (s.writeCmdPtr v).inv = true := by
  obtain ⟨-, hstatus, -, -⟩ := inv_iff.1 h
  exact inv_of_registers h (by simp) (by simp) (by simp) (by simp) (by simpa [State.statusOk] using hstatus)

theorem inv_hostStore {s : State} {a : Nat} {bs : Bytes} (h : s.inv = true)
    (hr : s.inRange a bs.length = true) : (s.hostStore a bs).inv = true := by
  obtain ⟨hmem, hstatus, hslots, hspoil⟩ := inv_iff.1 h
  obtain ⟨hsize, hwf, hbelow⟩ := memOk_iff.1 hmem
  refine inv_iff.2 ⟨memOk_iff.2 ⟨hsize, Memory.wf_writeBytes _ _ _ hwf,
    below_writeBytes_of_inRange hr hbelow⟩, hstatus, hslots, spoiledOk_iff.2 fun x hx => ?_⟩
  exact spoiledOk_iff.1 hspoil x (List.mem_filter.1 hx).1

theorem inv_spoil {s : State} {a n : Nat} (h : s.inv = true) (hr : s.inRange a n = true) :
    (s.spoil a n).inv = true := by
  obtain ⟨hmem, hstatus, hslots, hspoil⟩ := inv_iff.1 h
  refine inv_iff.2 ⟨hmem, hstatus, hslots, spoiledOk_iff.2 fun x hx => ?_⟩
  rcases mem_spoiled_spoil.1 hx with hnew | hold
  · rcases inRange_iff.1 hr with hnil | hle
    · omega
    · exact Nat.lt_of_lt_of_le hnew.2 hle
  · exact spoiledOk_iff.1 hspoil x hold

/-! ### Reset -/

@[simp] theorem platformReset_memSize (s : State) : s.platformReset.memSize = s.memSize := rfl
@[simp] theorem platformReset_dmem (s : State) :
    s.platformReset.dmem = Memory.drawAll s.dmem (s.draws + 1) s.inProgress := rfl
@[simp] theorem platformReset_matched (s : State) : s.platformReset.matched = false := rfl
@[simp] theorem platformReset_abortPend (s : State) : s.platformReset.abortPend = false := rfl
@[simp] theorem platformReset_spoiled (s : State) : s.platformReset.spoiled = s.spoiled := rfl

theorem slotsOk_poweredOn (size : Nat) (init : Memory) : (State.poweredOn size init).slotsOk = true :=
  slotsOk_iff.2 fun c => by simp [State.slot, slotOk, Slot.reset]

/-- A power-on with a legal DMEM meets the invariant (R480). -/
theorem inv_poweredOn {size : Nat} {init : Memory} (hsize : Config.legalMemSize size = true)
    (hwf : Memory.wf init = true) (hbelow : Memory.below size init) : (State.poweredOn size init).inv = true :=
  inv_iff.2 ⟨memOk_iff.2 ⟨hsize, hwf, hbelow⟩, rfl, slotsOk_poweredOn _ _, rfl⟩

/-- The bytes in progress are the DST range of a command that would not fault (R482). -/
theorem mem_inProgress {s : State} {x : Nat} (h : x ∈ s.inProgress) :
    ∃ i e, s.settle.command = .ok i ∧ effectOf i s.settle = .ok e ∧ x ∈ storeRange i s.settle := by
  unfold State.inProgress at h
  split at h
  · simp at h
  · split at h
    · simp at h
    · next i hi =>
      split at h
      · next t ht =>
        split at h
        · next hb =>
          rcases exec_next ht with ⟨e, he, -⟩ | ⟨c, -, rfl⟩
          · exact ⟨i, e, hi, he, h⟩
          · simp at hb
        · simp at h
      · simp at h

theorem inProgress_lt {s : State} (hs : s.slotsOk = true) {x : Nat} (h : x ∈ s.inProgress) :
    x < s.memSize := by
  obtain ⟨i, e, -, he, hx⟩ := mem_inProgress h
  rw [storeRange_eq] at hx
  rcases (okCase_of_ok he).store_eq (by simpa using hs) with ⟨hop, hrange, -⟩ | ⟨hop, -⟩
  · rw [if_pos hop, mem_addrRange] at hx
    rcases inRange_iff.1 hrange with hnil | hle
    · omega
    · rw [settle_memSize] at hle
      exact Nat.lt_of_lt_of_le hx.2 hle
  · rw [if_neg hop] at hx
    exact absurd hx List.not_mem_nil

theorem inv_platformReset {s : State} (h : s.inv = true) : s.platformReset.inv = true := by
  obtain ⟨hmem, -, hslots, hspoil⟩ := inv_iff.1 h
  obtain ⟨hsize, hwf, hbelow⟩ := memOk_iff.1 hmem
  exact inv_iff.2 ⟨memOk_iff.2 ⟨hsize, Memory.wf_drawAll _ _ _ hwf,
    Memory.below_drawAll _ (fun _ hx => inProgress_lt hslots hx) hbelow⟩, rfl, slotsOk_poweredOn s.memSize [], hspoil⟩

theorem inv_of_eventCase {e : Event} {s t : State} (hs : s.inv = true) (h : EventCase s e t) :
    t.inv = true := by
  cases h with
  | core _ hstep => exact inv_of_stepCase hs hstep
  | readReg | poll | writeIgnored | readMemBusy => exact hs
  | writeCtrl v => exact inv_writeCtrl hs v
  | writeStatus v => exact inv_writeStatus hs v
  | writeCmdPtr v => exact inv_writeCmdPtr hs v
  | readMemIdle => exact inv_settle hs
  | writeMemBusy a bs hb hr => exact inv_spoil hs hr
  | writeMemIdle a bs hb hr => exact inv_hostStore hs hr
  | reset => exact inv_platformReset hs

end Sys2Proof.Machine
end

section
/-! The statements about the state and its registers (10_state.md). -/

namespace Sys2Proof.Proofs

open Machine Claims

/-- Settles O59, from what a step can do and what each of it keeps. -/
theorem stepKeepsInv : Obligations.StepKeepsInv :=
  fun _ _ hs h => inv_of_stepCase hs (stepCase_of_step h)

/-- Settles O60, event by event. -/
theorem eventKeepsInv : Obligations.EventKeepsInv :=
  fun _ _ _ hs h => inv_of_eventCase hs (eventCase_of_sysStep h)

/-- Settles O9: of the events only a step of the core and a reset write ERRPTR, and a step only at a fault. -/
theorem errPtrWrittenOnlyAtFaults : Obligations.ErrPtrWrittenOnlyAtFaults := by
  refine ⟨hostReadReg_of_ne rfl (by decide), fun s v => hostWriteReg_ignored rfl (by decide) v s, ?_, ?_⟩
  · intro e s t h hne
    cases eventCase_of_sysStep h with
    | core _ hstep =>
      rcases hstep.errPtr_eq with ⟨hb, herr, hptr⟩ | ⟨-, hptr⟩
      · exact .inr ⟨rfl, hb, herr, hptr⟩
      · exact absurd hptr hne
    | reset => exact .inl rfl
    | readReg | poll | writeIgnored | readMemBusy | writeMemBusy | writeMemIdle => exact absurd rfl hne
    | writeCtrl | writeStatus | writeCmdPtr | readMemIdle => exact absurd (by simp) hne
  · intro s t hb herr h ht
    rcases (stepCase_of_step h).errPtr_eq with ⟨-, -, hptr⟩ | ⟨hkept, -⟩
    · exact hptr
    · rw [hkept, herr] at ht; cases ht

/-- Settles O50, by the target of the command's effect. -/
theorem pointerAfterCommand : Obligations.PointerAfterCommand := by
  intro i s t herr h
  rcases exec_next h with ⟨e, he, rfl⟩ | ⟨c, -, rfl⟩
  · refine ⟨fun ht => by simp [herr] at ht, fun _ => ?_⟩
    rw [commit_cmdPtr, (okCase_of_ok he).target_eq]
    split
    · rfl
    · simp [State.nextPtr, BitVec.toNat_add]
  · exact ⟨fun _ => rfl, fun ht => by simp at ht⟩

/-- Settles O51: a VERIFY is the only command with a value for MATCH, and no host access touches it. -/
theorem matchWrittenOnlyByVerify : Obligations.MatchWrittenOnlyByVerify := by
  refine ⟨fun e s t h hne => ?_, fun i s t h hop => ?_⟩
  · cases eventCase_of_sysStep h with
    | core _ hstep =>
      rcases hstep.matched_eq with ⟨hb, hverify⟩ | hkept
      · exact .inr ⟨rfl, hb, hverify⟩
      · exact absurd hkept hne
    | reset => exact .inl ⟨rfl, rfl⟩
    | readReg | poll | writeIgnored | readMemBusy | writeMemBusy | writeMemIdle => exact absurd rfl hne
    | writeCtrl | writeStatus | writeCmdPtr | readMemIdle => exact absurd (by simp) hne
  · rcases exec_next h with ⟨e, he, rfl⟩ | ⟨c, -, rfl⟩
    · have hflag := (okCase_of_ok he).flag_eq.resolve_left hop
      simp [hflag]
    · rfl

/-- Settles O52, from the store and the slot write of the command's effect. -/
theorem commandFrame : Obligations.CommandFrame := by
  intro i s t hs h
  obtain ⟨-, -, hslots, -⟩ := inv_iff.1 hs
  rcases exec_next h with ⟨e, he, rfl⟩ | ⟨c, -, rfl⟩
  · have hcase := okCase_of_ok he
    refine ⟨rfl, rfl, rfl, rfl, rfl, fun x hx => ?_, fun c hc => ?_⟩
    · rcases hcase.store_eq hslots with ⟨hop, -, bs, hstore, hlen⟩ | ⟨-, hstore⟩
      · refine ⟨hop, Decidable.byContradiction fun hout => ?_⟩
        rw [← hlen] at hout
        exact hx (by rw [commit_dmem, hstore]; exact Memory.read_writeBytes_out _ _ _ (by omega))
      · exact absurd (by rw [commit_dmem, hstore]; rfl) hx
    · rcases hcase.slot_eq with ⟨hop, x, hslot, -⟩ | hslot
      · refine ⟨Decidable.byContradiction fun hne => ?_, hop⟩
        exact hc (by rw [slot_commit_some hslot, if_neg hne])
      · exact absurd (slot_commit_none hslot c) hc
  · exact ⟨rfl, rfl, rfl, rfl, rfl, fun x hx => absurd rfl hx, fun c hc => absurd rfl hc⟩

/-- Settles O56: an event keeps the latch as it is, drops it, or is a write of ABORT to CTRL while busy. -/
theorem abortLatch : Obligations.AbortLatch := by
  intro e s t hlatch h
  cases eventCase_of_sysStep h with
  | core _ hstep =>
    rcases hstep.abortPend_eq with ⟨hb, rfl⟩ | hclear
    · exact ⟨hlatch, by simp_all, by simp_all, nofun⟩
    · simp [hclear]
  | reset => simp
  | writeCtrl v =>
    refine ⟨?_, ?_, nofun, nofun⟩
    · cases hb : s.busy <;> simp_all
    · intro hs ht
      obtain ⟨hb, hv⟩ : s.busy = true ∧ v.getLsbD 1 = true := by simpa [hs] using ht
      exact ⟨hb, v, rfl, hv⟩
  | readReg | poll | writeIgnored | readMemBusy | writeMemBusy | writeMemIdle =>
    exact ⟨hlatch, fun hs ht => absurd (hs.symm.trans ht) nofun, nofun, nofun⟩
  | writeStatus | writeCmdPtr | readMemIdle =>
    exact ⟨by simpa using hlatch, fun hs ht => by simp [hs] at ht, nofun, nofun⟩

/-- Settles O2: the reset state is a power-on with an empty list of bytes. -/
theorem resetInv : Obligations.ResetInv :=
  ⟨inv_poweredOn (by decide) rfl (by simp [Memory.below]), rfl⟩

/-- Settles O4. That CAPS has exactly the bits of the algorithm codes is checked code by code. -/
theorem idAndCaps : Obligations.IdAndCaps := by
  refine ⟨fun s => ⟨hostReadReg_of_ne rfl (by decide) s, hostReadReg_of_ne rfl (by decide) s⟩,
    fun s v => ⟨hostWriteReg_ignored rfl (by decide) v s, hostWriteReg_ignored rfl (by decide) v s⟩,
    fun n => ⟨fun hbit => ?_, ?_⟩⟩
  · have hcodes : ∀ k < 32, (0x00007FFE#32).getLsbD k = true → ∃ a ∈ allAlgs, (algCode a).toNat = k := by
      decide
    have hn : n < 32 := BitVec.lt_of_getLsbD hbit
    obtain ⟨a, -, ha⟩ := hcodes n hn hbit
    exact ⟨a, ha⟩
  · rintro ⟨a, rfl⟩
    cases a <;> rfl

/-- Settles O8. -/
theorem cmdPtrRegister : Obligations.CmdPtrRegister := by
  refine ⟨fun s hb => ?_, fun s v hb => ?_, fun s v hb => ?_, fun s t hb ht => ?_⟩
  · simp [hostReadReg_ok, regAccessOk, State.regValue, cmdPtrRead_idle hb, hb]
  · simp [hostWriteReg_cmdPtr, State.writeCmdPtr, hb]
  · simp [hostWriteReg_cmdPtr, State.writeCmdPtr, hb]
  · have hread : hostReadReg 0x10 4 s = .next (s.cmdPtrRead, { s with polls := s.polls + 1 }) := by
      simp [hostReadReg_ok, regAccessOk, State.regValue, hb]
    rw [hread]
    rcases cmdPtrRead_busy ht with hptr | hptr
    · exact .inl (by rw [hptr])
    · exact .inr (by rw [hptr])

/-- Settles O13. -/
theorem stepRunsDecoded : Obligations.StepRunsDecoded :=
  ⟨fun _ _ hb ha halign hrange hi => step_decoded hb ha halign hrange hi, fun _ => settle_of_clean⟩

/-- Settles O14. -/
theorem fetchFaults : Obligations.FetchFaults := by
  refine ⟨fun s hb ha hc halign => ?_, fun s hb ha hc halign hrange => ?_, fun s hptr => ⟨fun hsize => ?_, ?_⟩⟩
  · exact step_fetch_error hb ha hc (fetch_error.2 (.inl ⟨halign, rfl⟩))
  · exact step_fetch_error hb ha hc (fetch_error.2 (.inr ⟨halign, hrange, rfl⟩))
  · have h : s.cmdPtr.toNat = 2 ^ 32 - 32 := by rw [hptr]; rfl
    omega
  · have hnext : s.nextPtr = 0 := by rw [State.nextPtr, hptr]; rfl
    rw [exec_of_ok (e := {}) rfl]
    simp [State.commit, Memory.storeOpt, slotsAfter, hnext]

/-- Settles O6. -/
theorem ctrlRegister : Obligations.CtrlRegister := by
  refine ⟨fun s => ?_, fun s v hb hv => ?_, fun s v hb hv => ?_, fun s v hb => ?_⟩
  · rw [hostReadReg_of_ne rfl (by decide)]
    cases hirq : s.irqEn <;> simp [State.regValue, State.ctrl, bitAt, hirq]
  · intro t
    refine ⟨by rw [hostWriteReg_ctrl, writeCtrl_start hb hv], fun hc ha halign hrange i hi => ?_⟩
    have hsettle : t.settle = t := settle_of_clean hc
    rw [step_decoded (s := t) rfl ha halign hrange (by rw [hsettle]; exact hi), hsettle]
  · rw [hostWriteReg_ctrl, writeCtrl_idle hb hv]
  · rw [hostWriteReg_ctrl, writeCtrl_running hb]

/-- Settles O7. -/
theorem statusRegister : Obligations.StatusRegister := by
  refine ⟨fun s => ⟨hostReadReg_of_ne rfl (by decide) s, status_toNat s⟩, fun s v => ?_, fun s hs => ?_⟩
  · rw [hostWriteReg_status, State.writeStatus]
    cases v.getLsbD 1 <;> cases v.getLsbD 2 <;> simp
  · obtain ⟨-, hstatus, -, -⟩ := inv_iff.1 hs
    obtain ⟨hbusy, hdone, -, hcode, -⟩ := statusOk_iff.1 hstatus
    exact ⟨hbusy, hdone, hcode⟩

/-- Settles O5. -/
theorem reservedRegisters : Obligations.ReservedRegisters := by
  refine ⟨fun s => ⟨hostReadReg_of_ne rfl (by decide) s, hostReadReg_of_ne rfl (by decide) s,
      ctrl_reserved s, status_reserved s⟩,
    fun s v => ⟨hostWriteReg_ignored rfl (by decide) v s, hostWriteReg_ignored rfl (by decide) v s, ?_, ?_⟩,
    fun off size s v hacc => ?_⟩
  · simp [hostWriteReg_ctrl, State.writeCtrl]
  · simp [hostWriteReg_status, State.writeStatus]
  · have hno : regAccessOk off size = false := by
      simp only [regAccessOk, Bool.and_eq_false_iff, beq_eq_false_iff_ne, decide_eq_false_iff_not]
      omega
    simp [hostReadReg, hostWriteReg, hno]

end Sys2Proof.Proofs
end

section
/-! The host's accesses to DMEM: their answer inside and beyond MEM_SIZE, and what a store leaves. -/

namespace Sys2Proof.Machine

open Claims

/-! ### The answer of an access -/

theorem hostReadMem_idle {s : State} {a n : Nat} (hb : s.busy = false) (hr : InRange s a n) :
    hostReadMem a n s = .next (s.settle.memRead a n, s.settle) := by
  simp [hostReadMem, inRange_iff.2 hr, hb]

theorem hostWriteMem_idle {s : State} {a : Nat} {bs : Bytes} (hb : s.busy = false)
    (hr : InRange s a bs.length) : hostWriteMem a bs s = .next (s.hostStore a bs) := by
  simp [hostWriteMem, inRange_iff.2 hr, hb]

theorem inRange_eq_false {s : State} {a n : Nat} (hr : ¬InRange s a n) : s.inRange a n = false :=
  Bool.eq_false_iff.2 (mt inRange_iff.1 hr)

theorem hostReadMem_fault {s : State} {a n : Nat} (hr : ¬InRange s a n) :
    hostReadMem a n s = .fault .noSuchAddress := by
  simp [hostReadMem, inRange_eq_false hr]

theorem hostWriteMem_fault {s : State} {a : Nat} {bs : Bytes} (hr : ¬InRange s a bs.length) :
    hostWriteMem a bs s = .fault .noSuchAddress := by
  simp [hostWriteMem, inRange_eq_false hr]

/-! ### What the host's store leaves -/

/-- Read-back and frame of the host's store (R73, R74). -/
theorem wrote_hostStore {s : State} (h : Memory.wf s.dmem = true) (a : Nat) (bs : Bytes) :
    Wrote s (s.hostStore a bs) a bs :=
  ⟨Memory.readBytes_writeBytes _ _ _ h, fun _ hx => Memory.read_writeBytes_out _ _ _ hx⟩

/-- With no byte of unknown value there is none for the store to settle. -/
theorem hostStore_of_clean {s : State} (h : s.clean = true) (a : Nat) (bs : Bytes) :
    s.hostStore a bs = { s with dmem := Memory.writeBytes s.dmem a bs } := by
  have hnone : s.spoiled = [] := by simpa [State.clean] using h
  simp [State.hostStore, hnone]

theorem clean_hostStore {s : State} (h : s.clean = true) (a : Nat) (bs : Bytes) :
    (s.hostStore a bs).clean = true := by
  rw [hostStore_of_clean h]
  exact h

end Sys2Proof.Machine
end

section
/-! The statements about DMEM and the host (20_memory.md). -/

namespace Sys2Proof.Proofs

open Machine Claims

/-- Settles O11: the read after the write sees the stored bytes as they are, since nothing is left to settle. -/
theorem hostMemory : Obligations.HostMemory := by
  refine ⟨fun s a bs hwf hb hc hr => ⟨s.hostStore a bs, hostWriteMem_idle hb hr, ?_, ?_, ?_⟩,
    fun _ _ _ => hostReadMem_fault, fun _ _ _ => hostWriteMem_fault⟩
  · have hwrote : (s.hostStore a bs).memRead a bs.length = bs := (wrote_hostStore hwf a bs).1
    rw [hostReadMem_idle (s := s.hostStore a bs) hb hr, settle_of_clean (clean_hostStore hc a bs), hwrote]
  · exact wrote_hostStore hwf a bs
  · exact hostStore_of_clean hc a bs

end Sys2Proof.Proofs
end

section
/-! The descriptor (30_encoding.md): the fields of what the encoder writes, and every answer of the decoder with
what it says of OP, ALG and the operand fields (`DecodeCase`). -/

namespace Sys2Proof.Machine

open Claims

/-! ### The codes of operations and algorithms -/

/-- R104's list of codes is the model's list of operations. -/
theorem opCodes_eq_map : opCodes = allOps.map opCode := rfl

theorem opCode_mem_opCodes (op : Op) : opCode op ∈ opCodes := by
  cases op <;> decide

theorem opCode_inj {op op' : Op} (h : opCode op = opCode op') : op = op' := by
  have hleft : ∀ op, opOfCode (opCode op) = some op := by intro op; cases op <;> rfl
  have hsome : some op = some op' := by rw [← hleft op, h, hleft op']
  exact Option.some.inj hsome

theorem opOfCode_eq_none {c : BitVec 8} : opOfCode c = none ↔ c ∉ opCodes := by
  simp [opOfCode, opCodes_eq_map]

/-- The codes 0x01 to 0x05 are those of the hash operations. -/
theorem isHashOp_opCode (op : Op) : isHashOp (opCode op) ↔ op.isHashOp = true := by
  unfold isHashOp
  cases op <;> decide

theorem isHashOp_mem_opCodes {c : BitVec 8} (h : isHashOp c) : c ∈ opCodes := by
  have hall : ∀ c, 0x01#8 ≤ c ∧ c ≤ 0x05#8 → c ∈ opCodes := by decide
  exact hall c h

/-- The ALG field tells an algorithm from none: no algorithm has the code 0 (R105). -/
theorem algField_inj {a a' : Option Alg} (h : algField a = algField a') : a = a' := by
  have hleft : ∀ a, algOfCode (algField a) = a := by
    intro a
    rcases a with _ | a
    · rfl
    · cases a <;> rfl
  rw [← hleft a, h, hleft a']

/-- A code of no algorithm is in the set of no operation (R106). -/
theorem not_mem_algCodes {c : BitVec 5} (h : algOfCode c = none) (op : BitVec 8) : c ∉ algCodes op := by
  have hall : ∀ c, algOfCode c = none → c ∉ algCodes 0x01#8 ∧ c ∉ algCodes 0x02#8 ∧ c ∉ algCodes 0x03#8 := by
    decide
  obtain ⟨hhash, hverify, hstream⟩ := hall c h
  unfold algCodes
  split
  · exact hhash
  · split
    · exact hverify
    · exact hstream

/-- R106: the commands of the hash operations are those with an ALG code of the operation's set. -/
theorem isSome_ofHash (op : Op) (a : Alg) (o : Operands) :
    (Instr.ofHash op a o).isSome = (op.isHashOp && decide (algCode a ∈ algCodes (opCode op))) := by
  cases op <;> cases a <;> rfl

/-- Every other operation has a command without an algorithm. -/
theorem isSome_ofPlain (op : Op) (o : Operands) : (Instr.ofPlain op o).isSome = !op.isHashOp := by
  cases op <;> rfl

/-! ### A command and its three parts -/

/-- The laws of `Laws.Rebuild`, for every command at once. -/
theorem build_parts (i : Instr) : Instr.build i.op i.alg i.operands = some i := by
  cases i <;> rfl

/-- A command is determined by its operation, its algorithm and its operand fields. -/
theorem instr_ext {i j : Instr} (hop : i.op = j.op) (halg : i.alg = j.alg)
    (ho : i.operands = j.operands) : i = j := by
  have hsome : some i = some j := by rw [← build_parts i, hop, halg, ho, build_parts j]
  exact Option.some.inj hsome

/-- A command of a hash operation has an algorithm of the operation's set; any other has none (R105, R106). -/
theorem algField_legal (i : Instr) :
    (isHashOp (opCode i.op) ∧ algField i.alg ∈ algCodes (opCode i.op)) ∨
      (¬isHashOp (opCode i.op) ∧ algField i.alg = 0) := by
  have hbuild : (Instr.build i.op i.alg i.operands).isSome = true := by rw [build_parts]; rfl
  rw [isHashOp_opCode]
  cases halg : i.alg with
  | some a => left; simpa [halg, Instr.build, isSome_ofHash, algField] using hbuild
  | none => right; simpa [halg, Instr.build, isSome_ofPlain, algField] using hbuild

/-! ### What the decoder answers -/

/-- The answers of the decoder, each with what the descriptor's fields are then. -/
inductive DecodeCase (d : Bytes) : Except ErrCode Instr → Prop
  | illegalOp (hop : opField d ∉ opCodes) : DecodeCase d (.error .illegalOp)
  | illegalAlg (hop : isHashOp (opField d)) (halg : algBits d ∉ algCodes (opField d)) :
      DecodeCase d (.error .illegalAlg)
  | reserved (hop : opField d ∈ opCodes) (hplain : ¬isHashOp (opField d)) (halg : algBits d ≠ 0) :
      DecodeCase d (.error .reserved)
  | ok (i : Instr) (hop : opField d = opCode i.op) (halg : algBits d = algField i.alg)
      (ho : operandFields d = i.operands) : DecodeCase d (.ok i)

theorem decodeCase (d : Bytes) : DecodeCase d (decode d) := by
  unfold decode
  split
  next hnone => exact .illegalOp (opOfCode_eq_none.1 hnone)
  next op hsome =>
    have hop : opCode op = opField d := opCode_of_opOfCode hsome
    have hiff := isHashOp_opCode op
    rw [hop] at hiff
    split
    next hhash =>
      split
      next hnone => exact .illegalAlg (hiff.2 hhash) (not_mem_algCodes hnone _)
      next a ha =>
        have halg : algCode a = algBits d := algCode_of_algOfCode ha
        have hlegal := isSome_ofHash op a (operandFields d)
        cases hi : Instr.ofHash op a (operandFields d) with
        | some i =>
          obtain ⟨rfl, hia, ho⟩ := ofHash_some hi
          exact .ok i hop.symm (by rw [hia, ← halg]; rfl) ho.symm
        | none => exact .illegalAlg (hiff.2 hhash) (by simpa [hi, hhash, hop, halg] using hlegal)
    next hplain =>
      have hnot : ¬isHashOp (opField d) := mt hiff.1 hplain
      split
      next hne => exact .reserved (hop ▸ opCode_mem_opCodes op) hnot hne
      next hzero =>
        have hlegal := isSome_ofPlain op (operandFields d)
        cases hi : Instr.ofPlain op (operandFields d) with
        | some i =>
          obtain ⟨rfl, hia, ho⟩ := ofPlain_some hi
          exact .ok i hop.symm (by rw [hia]; exact Decidable.not_not.1 hzero) ho.symm
        | none => simp [hi, hplain] at hlegal

/-- The descriptors that decode to a command are those with its OP, its ALG and its operand fields. -/
theorem decode_ok_iff {d : Bytes} {i : Instr} :
    decode d = .ok i ↔
      opField d = opCode i.op ∧ algBits d = algField i.alg ∧ operandFields d = i.operands := by
  have hcase := decodeCase d
  generalize decode d = r at hcase ⊢
  constructor
  · rintro rfl
    cases hcase with
    | ok _ hop halg ho => exact ⟨hop, halg, ho⟩
  · rintro ⟨hop, halg, ho⟩
    have hlegal := algField_legal i
    rw [← hop, ← halg] at hlegal
    cases hcase with
    | illegalOp hno => exact absurd (hop ▸ opCode_mem_opCodes i.op) hno
    | illegalAlg hhash hno =>
      rcases hlegal with ⟨-, hmem⟩ | ⟨hplain, -⟩
      · exact absurd hmem hno
      · exact absurd hhash hplain
    | reserved _ hplain hne =>
      rcases hlegal with ⟨hhash, -⟩ | ⟨-, hzero⟩
      · exact absurd hhash hplain
      · exact absurd hzero hne
    | ok j hop' halg' ho' =>
      rw [instr_ext (opCode_inj (hop'.symm.trans hop)) (algField_inj (halg'.symm.trans halg))
        (ho'.symm.trans ho)]

/-! ### The words of a descriptor -/

theorem descWord_encode (i : Instr) (k : Nat) (h : k < (encodeWords i).length) :
    descWord (encode i) k = (encodeWords i)[k] :=
  descWord_words (encodeWords i) k h

theorem descWord_zero_encode (i : Instr) : descWord (encode i) 0 = controlWord i :=
  descWord_encode i 0 (by simp [encodeWords])

theorem opField_encode (i : Instr) : opField (encode i) = opCode i.op := by
  rw [opField, descWord_zero_encode]
  exact (extract_fields _ _ _ _ _).1

theorem algBits_encode (i : Instr) : algBits (encode i) = algField i.alg := by
  rw [algBits, descWord_zero_encode]
  exact (extract_fields _ _ _ _ _).2.1

theorem operandFields_encode (i : Instr) : operandFields (encode i) = i.operands := by
  obtain ⟨-, -, hctx, hparam, hklen⟩ :=
    extract_fields i.operands.klen i.operands.param i.operands.ctx (algField i.alg) (opCode i.op)
  simp [operandFields, descWord_encode, encodeWords, controlWord, hctx, hparam, hklen]

/-- A descriptor's first `n` words, written again, are its first `4n` bytes (R100). -/
theorem flatMap_bytesLE_descWord (d : Bytes) (n : Nat) (h : 4 * n ≤ d.length) :
    ((List.range n).map (descWord d)).flatMap bytesLE = d.take (4 * n) := by
  induction n with
  | zero => rfl
  | succ n ih =>
    have hword := bytesLE_descWord d n (by omega)
    rw [List.range_succ, List.map_append, List.flatMap_append, ih (by omega)]
    simp [hword, slice, Nat.mul_succ, List.take_add]

/-- A command with the fields of a descriptor has its words. -/
theorem encodeWords_of_fields {d : Bytes} {i : Instr} (hop : opField d = opCode i.op)
    (halg : algBits d = algField i.alg) (ho : operandFields d = i.operands) :
    encodeWords i = (List.range 8).map (descWord d) := by
  have hzero : controlWord i = descWord d 0 := by
    rw [controlWord, ← ho, ← halg, ← hop]
    exact append_fields (descWord d 0)
  rw [encodeWords, hzero, ← ho]
  rfl

/-! ### The rows of the opcode table -/

/-- The control word of a table row holds the row's OP and ALG and nothing above them. -/
theorem row_fields {r : (Operands → Instr) × Word} (h : r ∈ rows) :
    r.2.toNat < 2 ^ 13 ∧ ∀ o : Operands,
      r.2.extractLsb' 0 8 = opCode (r.1 o).op ∧ r.2.extractLsb' 8 5 = algField (r.1 o).alg ∧
        (r.1 o).operands = o := by
  unfold rows at h
  repeat
    rcases List.mem_cons.1 h with rfl | h
    · exact ⟨by decide, fun _ => ⟨rfl, rfl, rfl⟩⟩
  cases h

/-- The bytes written out for a row are the encoder's. -/
theorem rowBytes_eq_encode {r : (Operands → Instr) × Word} (h : r ∈ rows) (o : Operands) :
    rowBytes r.2 o = encode (r.1 o) := by
  obtain ⟨hlow, hfields⟩ := row_fields h
  obtain ⟨hop, halg, ho⟩ := hfields o
  have hbytes : (fun w : Word => [w.extractLsb' 0 8, w.extractLsb' 8 8, w.extractLsb' 16 8,
      w.extractLsb' 24 8]) = bytesLE := (funext bytesLE_word).symm
  rw [rowBytes, hbytes, or_fields _ _ _ _ hlow, hop, halg, encode, encodeWords, controlWord, ho]

end Sys2Proof.Machine
end

section
/-! The statements about the encoding (30_encoding.md). -/

namespace Sys2Proof.Proofs

open Machine Claims

/-- Settles O17: the encoder's bytes hold the three parts that the decoder asks for. -/
theorem decodeEncode : Obligations.DecodeEncode :=
  fun i => decode_ok_iff.2 ⟨opField_encode i, algBits_encode i, operandFields_encode i⟩

/-- Settles O18: the descriptor's fields are the command's, and its eight words are all of its bytes. -/
theorem encodeDecode : Obligations.EncodeDecode := by
  intro d i hlen h
  obtain ⟨hop, halg, ho⟩ := decode_ok_iff.1 h
  rw [encode, encodeWords_of_fields hop halg ho, flatMap_bytesLE_descWord d 8 (by omega)]
  exact List.take_of_length_le (by omega)

/-- Settles O16: the bytes of a row are the encoder's, and those decode. -/
theorem descriptorRows : Obligations.DescriptorRows := by
  intro r hr o
  rw [rowBytes_eq_encode hr o]
  exact decodeEncode (r.1 o)

/-- Settles O19, by the decoder's answer: each case of it says which of the three conditions holds. -/
theorem decodeRejects : Obligations.DecodeRejects := by
  intro d
  have hhashListed : isHashOp (opField d) → opField d ∈ opCodes := isHashOp_mem_opCodes
  have hcase := decodeCase d
  generalize decode d = r at hcase ⊢
  cases hcase with
  | illegalOp hop => simp [hop, mt hhashListed hop]
  | illegalAlg hop halg => simp [hop, halg, hhashListed hop]
  | reserved hop hplain halg => simpa [hop, hplain] using halg
  | ok i hop halg ho =>
    rw [hop, halg]
    rcases algField_legal i with ⟨hhash, hmem⟩ | ⟨hplain, hzero⟩
    · simp [hhash, hmem, opCode_mem_opCodes]
    · simp [hplain, hzero, opCode_mem_opCodes]

/-- Settles O20: the samples are closed, and the decoder runs on each. -/
theorem sampleWords : Obligations.SampleWords := by
  unfold Obligations.SampleWords
  decide +kernel

end Sys2Proof.Proofs
end

section
/-! BLAKE2b (43_blake2b.md R236, R237): the model's fold over the numbered blocks of `D` is the statements'
recursion on `D`, and what that recursion does with a key block. -/

namespace Sys2Proof.Machine

open Claims

/-! ### The recursion of the statements -/

theorem blake2bAbsorb_last (n : Nat) (h : List Word64) (t : Nat) {D : Bytes} (hD : D.length ≤ 128) :
    blake2bAbsorb n h t D = blake2bF h (zeroPad 128 D) (BitVec.ofNat 128 (t + D.length)) true := by
  cases n with
  | zero => rfl
  | succ n => rw [blake2bAbsorb, if_pos hD]

theorem blake2bAbsorb_more (n : Nat) (h : List Word64) (t : Nat) {D : Bytes} (hD : 128 < D.length) :
    blake2bAbsorb (n + 1) h t D =
      blake2bAbsorb n (blake2bF h (D.take 128) (BitVec.ofNat 128 (t + 128)) false) (t + 128)
        (D.drop 128) := by
  rw [blake2bAbsorb, if_neg (by omega)]

/-! ### The compression of a list of blocks -/

/-- The compressions of R236 on blocks numbered from `k` on, all but the last one with the byte count up to
their end, and the last one with the count `len` of the whole data. -/
def blake2bCompressBlocks (h : List Word64) (k : Nat) (blks : List Bytes) (len : Nat) : List Word64 :=
  blake2bF
    ((blks.dropLast.zipIdx k).foldl
      (fun h bi => blake2bF h bi.1 (BitVec.ofNat 128 (128 * (bi.2 + 1))) false) h)
    (zeroPad 128 (blks.getLast?.getD [])) (BitVec.ofNat 128 len) true

theorem blake2bCompressBlocks_singleton (h : List Word64) (k : Nat) (b : Bytes) (len : Nat) :
    blake2bCompressBlocks h k [b] len = blake2bF h (zeroPad 128 b) (BitVec.ofNat 128 len) true := rfl

theorem blake2bCompressBlocks_cons (h : List Word64) (k : Nat) (b : Bytes) {bs : List Bytes} (len : Nat)
    (hbs : bs ≠ []) :
    blake2bCompressBlocks h k (b :: bs) len =
      blake2bCompressBlocks (blake2bF h b (BitVec.ofNat 128 (128 * (k + 1))) false) (k + 1) bs len := by
  cases bs with
  | nil => exact absurd rfl hbs
  | cons c cs => simp [blake2bCompressBlocks, List.getLast?_cons_cons]

/-! ### The blocks of the data -/

/-- The pieces of 128 bytes of a string, one for the empty string (R236). -/
def blake2bBlocks (D : Bytes) : List Bytes := blocks 128 (max 1 (ceilDiv D.length 128)) D

theorem blake2bBlocks_last {D : Bytes} (hD : D.length ≤ 128) : blake2bBlocks D = [D] := by
  have hcount : max 1 (ceilDiv D.length 128) = 0 + 1 := by unfold ceilDiv; omega
  rw [blake2bBlocks, hcount, blocks, blocks, List.take_of_length_le hD]

theorem blake2bBlocks_more {D : Bytes} (hD : 128 < D.length) :
    blake2bBlocks D = D.take 128 :: blake2bBlocks (D.drop 128) := by
  have hcount : max 1 (ceilDiv D.length 128) = max 1 (ceilDiv (D.drop 128).length 128) + 1 := by
    rw [List.length_drop]; unfold ceilDiv; omega
  rw [blake2bBlocks, hcount, blocks, blake2bBlocks]

theorem blake2bBlocks_ne_nil (D : Bytes) : blake2bBlocks D ≠ [] := by
  rw [← List.length_pos_iff, blake2bBlocks, length_blocks]
  exact Nat.le_max_left 1 _

/-- The recursion compresses the blocks in order, when its bound allows for all of them. -/
theorem blake2bAbsorb_eq_compressBlocks (n : Nat) (h : List Word64) (k : Nat) {D : Bytes}
    (hn : D.length ≤ 128 * (n + 1)) :
    blake2bAbsorb n h (128 * k) D =
      blake2bCompressBlocks h k (blake2bBlocks D) (128 * k + D.length) := by
  induction n generalizing h k D with
  | zero =>
    rw [blake2bBlocks_last hn, blake2bCompressBlocks_singleton]
    rfl
  | succ n ih =>
    rcases Nat.lt_or_ge 128 D.length with hmore | hlast
    · have hlen : 128 * (k + 1) + (D.drop 128).length = 128 * k + D.length := by
        rw [List.length_drop]; omega
      rw [blake2bAbsorb_more _ _ _ hmore, blake2bBlocks_more hmore,
        blake2bCompressBlocks_cons _ _ _ _ (blake2bBlocks_ne_nil _), ← hlen]
      exact ih _ (k + 1) (by rw [List.length_drop]; omega)
    · rw [blake2bAbsorb_last _ _ _ hlast, blake2bBlocks_last hlast, blake2bCompressBlocks_singleton]

/-- The hash absorbs its data `D` from the initial state on (R236). -/
theorem blake2b_eq_absorb (m key : Bytes) (nn : Nat) {n : Nat}
    (hn : (blake2bData key m).length ≤ 128 * (n + 1)) :
    blake2b m key nn =
      blake2bOut (blake2bAbsorb n (blake2bInit key.length nn) 0 (blake2bData key m)) nn := by
  have habsorb := blake2bAbsorb_eq_compressBlocks n (blake2bInit key.length nn) 0 hn
  rw [Nat.mul_zero, Nat.zero_add] at habsorb
  rw [habsorb]
  rfl

/-! ### The key block -/

theorem length_zeroPad {n : Nat} {s : Bytes} (h : s.length ≤ n) : (zeroPad n s).length = n := by
  rw [zeroPad, List.length_append, length_zeros]; omega

/-- A string that is long enough gets no zeros. -/
theorem zeroPad_of_le {n : Nat} {s : Bytes} (h : n ≤ s.length) : zeroPad n s = s := by
  rw [zeroPad, Nat.sub_eq_zero_of_le h]
  exact List.append_nil s

theorem blake2bData_nokey (m : Bytes) : blake2bData [] m = m := rfl

theorem blake2bData_key {key : Bytes} (m : Bytes) (h : key ≠ []) :
    blake2bData key m = zeroPad 128 key ++ m := by
  rw [blake2bData, if_pos (List.length_pos_iff.2 h)]

/-- Nothing after a block: it is the last one. -/
theorem blake2bAbsorb_block (n : Nat) (h : List Word64) (t : Nat) {blk : Bytes} (hblk : blk.length = 128) :
    blake2bAbsorb n h t blk = blake2bF h blk (BitVec.ofNat 128 (t + 128)) true := by
  rw [blake2bAbsorb_last n h t (Nat.le_of_eq hblk), zeroPad_of_le (Nat.le_of_eq hblk.symm), hblk]

/-- Something after a block: it is compressed as a block that is not the last one. -/
theorem blake2bAbsorb_block_append (n : Nat) (h : List Word64) (t : Nat) {blk m : Bytes}
    (hblk : blk.length = 128) (hm : m ≠ []) :
    blake2bAbsorb (n + 1) h t (blk ++ m) =
      blake2bAbsorb n (blake2bF h blk (BitVec.ofNat 128 (t + 128)) false) (t + 128) m := by
  have hpos : 0 < m.length := List.length_pos_iff.2 hm
  rw [blake2bAbsorb_more n h t (by rw [List.length_append]; omega), List.take_left' hblk,
    List.drop_left' hblk]

end Sys2Proof.Machine
end

section
/-! The statement about BLAKE2b (43_blake2b.md). -/

namespace Sys2Proof.Proofs

open Machine Claims

/-- Settles O33: in each case the absorption of `D` starts with the message, or with the key block, which is the
last block just when no message follows. -/
theorem blake2bKeyCases : Obligations.Blake2bKeyCases := by
  intro m key nn hkey
  have hblock : (zeroPad 128 key).length = 128 := length_zeroPad (by omega)
  refine ⟨?nokey, ?keyAlone, ?keyAndMessage⟩
  case nokey =>
    rintro rfl
    exact blake2b_eq_absorb m [] nn (n := m.length) (by rw [blake2bData_nokey]; omega)
  case keyAlone =>
    rintro hne rfl
    have hdata : blake2bData key [] = zeroPad 128 key := by rw [blake2bData_key _ hne, List.append_nil]
    rw [blake2b_eq_absorb [] key nn (n := 0) (by rw [hdata]; omega), hdata,
      blake2bAbsorb_block 0 _ 0 hblock]
  case keyAndMessage =>
    intro hne hm
    have hdata := blake2bData_key m hne
    have hlen : (blake2bData key m).length = 128 + m.length := by
      rw [hdata, List.length_append, hblock]
    rw [blake2b_eq_absorb m key nn (n := m.length + 1) (by omega), hdata,
      blake2bAbsorb_block_append _ _ 0 hblock hm]

end Sys2Proof.Proofs
end

section
/-! BLAKE3 (44_blake3.md): the bytes of an output in blocks of 64 (R267), and the stack of R266 against the
statements' tree: a full subtree is pushed as one chaining value, and the merges at the end of the message build
the tree over what is left. -/

namespace Sys2Proof.Machine

open Claims

/-! ### The output of the root -/

/-- Byte `i` of a string of pieces of `k` bytes is byte `i mod k` of piece `i / k`. -/
theorem getElem?_flatMap_of_length {α : Type} {f : α → Bytes} {k : Nat} (hk : 0 < k)
    (hf : ∀ x, (f x).length = k) (l : List α) (i : Nat) :
    (l.flatMap f)[i]? = l[i / k]?.bind fun x => (f x)[i % k]? := by
  induction l generalizing i with
  | nil => simp
  | cons x xs ih =>
    rw [List.flatMap_cons]
    by_cases hi : i < k
    · rw [List.getElem?_append_left (by rwa [hf]), Nat.div_eq_of_lt hi, Nat.mod_eq_of_lt hi]
      rfl
    · obtain ⟨d, rfl⟩ := Nat.exists_eq_add_of_le (Nat.not_lt.1 hi)
      rw [List.getElem?_append_right (by rw [hf]; omega), hf, Nat.add_sub_cancel_left, ih,
        Nat.add_div_left d hk, Nat.add_mod_left, List.getElem?_cons_succ]

/-- Byte `i` of an output, whatever the output's length, comes from block `i / 64` (R267). -/
theorem getElem?_blake3 (m : Bytes) {n i : Nat} (hi : i < n) :
    (blake3 m n)[i]? = (rootBlock (blake3Root m) (i / 64))[i % 64]? := by
  have hblock : i / 64 < ceilDiv n 64 := by unfold ceilDiv; omega
  rw [blake3, List.getElem?_take_of_lt hi,
    getElem?_flatMap_of_length (by decide) (length_rootBlock (blake3Root m)), List.getElem?_range hblock]
  rfl

/-! ### The chunks of a message -/

theorem blake3Chunks_of_le {m : Bytes} (hm : m.length ≤ 1024) : blake3Chunks m = [m] := by
  have hcount : max 1 (ceilDiv m.length 1024) = 0 + 1 := by unfold ceilDiv; omega
  rw [blake3Chunks, hcount, blocks, blocks, List.take_of_length_le hm]

theorem blake3Chunks_ne_nil (m : Bytes) : blake3Chunks m ≠ [] := by
  rw [← List.length_pos_iff, blake3Chunks, length_blocks]
  exact Nat.le_max_left 1 _

/-- `k` full chunks with something after them come off the front. -/
theorem blake3Chunks_split {m : Bytes} {k : Nat} (hm : 1024 * k < m.length) :
    blake3Chunks m =
      blocks 1024 k (m.take (1024 * k)) ++ blake3Chunks (m.drop (1024 * k)) := by
  have hcount : max 1 (ceilDiv m.length 1024) =
      k + max 1 (ceilDiv (m.drop (1024 * k)).length 1024) := by
    rw [List.length_drop]; unfold ceilDiv; omega
  rw [blake3Chunks, hcount, blocks_add, Nat.mul_comm k 1024, blake3Chunks]

/-! ### The stack -/

/-- The stack after the chunks `cs`, numbered from `j` on, are pushed on the stack `st` (R266). -/
def pushChunks (st : List (List Word)) (j : Nat) (cs : List Bytes) : List (List Word) :=
  (cs.zipIdx j).foldl (fun st cj => pushCV st (cj.2 + 1) (outputCV (chunkOutput cj.1 cj.2))) st

/-- The merges at the end of the message: `out` becomes the right child of each value on the stack in turn
(R266). -/
def mergeStack (st : List (List Word)) (out : Blake3Output) : Blake3Output :=
  st.foldl (fun out left => parentOutput left (outputCV out)) out

/-- The end of R266 from the stack `st` on, with the chunks `cs`, numbered from `j` on, still to come: all but
the last are pushed, and the last one is merged. -/
def finishChunks (st : List (List Word)) (j : Nat) (cs : List Bytes) : Blake3Output :=
  mergeStack (pushChunks st j cs.dropLast)
    (chunkOutput (cs.getLast?.getD []) (j + (cs.length - 1)))

theorem blake3Root_eq_finishChunks (m : Bytes) : blake3Root m = finishChunks [] 0 (blake3Chunks m) := by
  rw [finishChunks, Nat.zero_add]
  rfl

theorem pushChunks_singleton (st : List (List Word)) (j : Nat) (c : Bytes) :
    pushChunks st j [c] = pushCV st (j + 1) (outputCV (chunkOutput c j)) := rfl

theorem pushChunks_append (st : List (List Word)) (j : Nat) (cs ds : List Bytes) :
    pushChunks st j (cs ++ ds) = pushChunks (pushChunks st j cs) (j + cs.length) ds := by
  rw [pushChunks, List.zipIdx_append, List.foldl_append]
  rfl

theorem mergeStack_cons (left : List Word) (st : List (List Word)) (out : Blake3Output) :
    mergeStack (left :: st) out = mergeStack st (parentOutput left (outputCV out)) := rfl

theorem finishChunks_singleton (st : List (List Word)) (j : Nat) (c : Bytes) :
    finishChunks st j [c] = mergeStack st (chunkOutput c j) := rfl

theorem finishChunks_append (st : List (List Word)) (j : Nat) (cs : List Bytes) {ds : List Bytes}
    (hds : ds ≠ []) :
    finishChunks st j (cs ++ ds) = finishChunks (pushChunks st j cs) (j + cs.length) ds := by
  have hlen : 0 < ds.length := List.length_pos_iff.2 hds
  have hlast : (cs ++ ds).getLast? = ds.getLast? := by
    rw [List.getLast?_append, List.getLast?_eq_some_getLast hds, Option.some_or]
  have hindex : j + ((cs ++ ds).length - 1) = j + cs.length + (ds.length - 1) := by
    rw [List.length_append]; omega
  rw [finishChunks, List.dropLast_append_of_ne_nil hds, pushChunks_append, hlast, hindex, finishChunks]

/-! ### The tree -/

theorem blake3Tree_of_le {p : Nat} {m : Bytes} (j : Nat) (hm : m.length ≤ 1024 * 2 ^ p) :
    blake3Tree (p + 1) m j = blake3Tree p m j := by
  rw [blake3Tree, if_pos hm]

theorem blake3Tree_of_gt {p : Nat} {m : Bytes} (j : Nat) (hm : 1024 * 2 ^ p < m.length) :
    blake3Tree (p + 1) m j =
      parentOutput (outputCV (blake3Tree p (m.take (1024 * 2 ^ p)) j))
        (outputCV (blake3Tree p (m.drop (1024 * 2 ^ p)) (j + 2 ^ p))) := by
  rw [blake3Tree, if_neg (Nat.not_le.2 hm)]

/-- A full subtree of `2^p` chunks whose first index is a multiple of `2^p` leaves the stack as one push of its
chaining value does, counted in subtrees of that size. -/
theorem pushChunks_full (p : Nat) (st : List (List Word)) (q : Nat) {m : Bytes}
    (hm : m.length = 1024 * 2 ^ p) :
    pushChunks st (2 ^ p * q) (blocks 1024 (2 ^ p) m) =
      pushCV st (q + 1) (outputCV (blake3Tree p m (2 ^ p * q))) := by
  induction p generalizing st q m with
  | zero =>
    have hchunk : blocks 1024 (2 ^ 0) m = [m] := by
      rw [Nat.pow_zero, blocks, blocks, List.take_of_length_le (by omega)]
    rw [hchunk, pushChunks_singleton, Nat.pow_zero, Nat.one_mul, blake3Tree]
  | succ p ih =>
    have hpos : 0 < 2 ^ p := Nat.two_pow_pos p
    have hlen : m.length = 1024 * 2 ^ p + 1024 * 2 ^ p := by rw [hm, Nat.pow_succ]; omega
    have hleft : (m.take (1024 * 2 ^ p)).length = 1024 * 2 ^ p := by rw [List.length_take]; omega
    have hright : (m.drop (1024 * 2 ^ p)).length = 1024 * 2 ^ p := by rw [List.length_drop]; omega
    have hindex : 2 ^ (p + 1) * q = 2 ^ p * (2 * q) := by rw [Nat.pow_succ, Nat.mul_assoc]
    have hblocks : blocks 1024 (2 ^ (p + 1)) m =
        blocks 1024 (2 ^ p) (m.take (1024 * 2 ^ p)) ++ blocks 1024 (2 ^ p) (m.drop (1024 * 2 ^ p)) := by
      rw [Nat.pow_succ, Nat.mul_two, blocks_add, Nat.mul_comm (2 ^ p) 1024]
    rw [hblocks, hindex, pushChunks_append, ih st (2 * q) hleft, pushCV_odd, length_blocks,
      blake3Tree_of_gt _ (by omega), ← Nat.mul_succ, ih _ (2 * q + 1) hright,
      show 2 * q + 1 + 1 = 2 * (q + 1) by omega, pushCV_even]

/-- The rest of the message, of at most `2^p` chunks from a multiple of `2^p` on, ends as the tree over it,
merged with the stack before it. -/
theorem finishChunks_eq_tree (p : Nat) (st : List (List Word)) (q : Nat) {m : Bytes}
    (hm : m.length ≤ 1024 * 2 ^ p) :
    finishChunks st (2 ^ p * q) (blake3Chunks m) = mergeStack st (blake3Tree p m (2 ^ p * q)) := by
  induction p generalizing st q m with
  | zero => rw [blake3Chunks_of_le (by omega), finishChunks_singleton, blake3Tree]
  | succ p ih =>
    have hindex : 2 ^ (p + 1) * q = 2 ^ p * (2 * q) := by rw [Nat.pow_succ, Nat.mul_assoc]
    rw [hindex]
    by_cases hle : m.length ≤ 1024 * 2 ^ p
    · rw [blake3Tree_of_le _ hle, ih st (2 * q) hle]
    · have hgt : 1024 * 2 ^ p < m.length := Nat.not_le.1 hle
      have hleft : (m.take (1024 * 2 ^ p)).length = 1024 * 2 ^ p := by rw [List.length_take]; omega
      have hright : (m.drop (1024 * 2 ^ p)).length ≤ 1024 * 2 ^ p := by
        rw [Nat.pow_succ] at hm; rw [List.length_drop]; omega
      rw [blake3Chunks_split hgt, finishChunks_append _ _ _ (blake3Chunks_ne_nil _),
        pushChunks_full p st (2 * q) hleft, pushCV_odd, length_blocks, ← Nat.mul_succ,
        ih _ (2 * q + 1) hright, mergeStack_cons, blake3Tree_of_gt _ hgt, ← Nat.mul_succ]

/-- The stack of R266 builds the tree. -/
theorem blake3Root_eq_tree (p : Nat) {m : Bytes} (hm : m.length ≤ 1024 * 2 ^ p) :
    blake3Root m = blake3Tree p m 0 := by
  rw [blake3Root_eq_finishChunks]
  exact finishChunks_eq_tree p [] 0 hm

end Sys2Proof.Machine
end

section
/-! The statements about BLAKE3 (44_blake3.md). -/

namespace Sys2Proof.Proofs

open Machine Claims

/-- Settles O34: a byte of an output does not depend on the output's length, so two outputs agree byte by byte
as far as the shorter one reaches. -/
theorem blake3Output : Obligations.Blake3Output := by
  intro m n
  refine ⟨length_blake3 m n, fun i hi => getElem?_blake3 m hi, fun k hk => ?_⟩
  apply List.ext_getElem?
  intro i
  by_cases hi : i < k
  · rw [List.getElem?_take_of_lt hi, getElem?_blake3 m (by omega), getElem?_blake3 m hi]
  · rw [List.getElem?_take_eq_none (by omega), List.getElem?_eq_none (by rw [length_blake3]; omega)]

/-- Settles O35: one and two chunks are the trees of depth 0 and 1. -/
theorem blake3Tree : Obligations.Blake3Tree := by
  intro m
  refine ⟨?oneChunk, ?twoChunks, fun p hp => blake3Root_eq_tree p hp⟩
  case oneChunk =>
    intro hm
    exact blake3Root_eq_tree 0 hm
  case twoChunks =>
    intro hlo hhi
    rw [blake3Root_eq_tree 1 hhi, blake3Tree_of_gt 0 hlo]
    rfl

end Sys2Proof.Proofs
end

section
/-! The message words of SipHash (45_siphash.md R292): the full words are the blocks of the message read as
little-endian words, and the last word is the read of eight bytes, the tail padded to the length byte. -/

namespace Sys2Proof.Machine

/-- Words read from consecutive blocks of the word's size, written again, are the bytes of those blocks. -/
theorem flatMap_bytesLE_readLE_blocks {w : Nat} (hw : w % 8 = 0) (k : Nat) (s : Bytes)
    (h : k * (w / 8) ≤ s.length) :
    ((blocks (w / 8) k s).map fun b => readLE w b 0).flatMap bytesLE = s.take (k * (w / 8)) := by
  induction k generalizing s with
  | zero => simp [blocks]
  | succ k ih =>
    rw [Nat.succ_mul] at h
    have hfirst : (s.take (w / 8)).length = w / 8 := by rw [List.length_take]; omega
    have hrest : k * (w / 8) ≤ (s.drop (w / 8)).length := by rw [List.length_drop]; omega
    rw [blocks, List.map_cons, List.flatMap_cons, bytesLE_readLE hw hfirst, ih _ hrest, Nat.succ_mul,
      Nat.add_comm, List.take_add]

theorem flatMap_bytesLE_sipWords (m : Bytes) :
    (sipWords m).flatMap bytesLE = m.take (8 * (m.length / 8)) := by
  rw [Nat.mul_comm]
  exact flatMap_bytesLE_readLE_blocks (w := 64) rfl _ m (Nat.div_mul_le_self _ 8)

/-- What the full words leave of a message. -/
def sipTail (m : Bytes) : Bytes := m.drop (8 * (m.length / 8))

@[simp] theorem length_sipTail (m : Bytes) : (sipTail m).length = m.length % 8 := by
  rw [sipTail, List.length_drop]
  omega

theorem slice_eq_sipTail (m : Bytes) : slice m (8 * (m.length / 8)) (m.length % 8) = sipTail m := by
  rw [← length_sipTail, slice, ← sipTail, List.take_length]

/-- The bytes of the last word by R292: the tail, zeros up to byte 7, and the length mod 256. -/
def sipLastBytes (m : Bytes) : Bytes :=
  sipTail m ++ zeros (7 - m.length % 8) ++ [BitVec.ofNat 8 m.length]

@[simp] theorem length_sipLastBytes (m : Bytes) : (sipLastBytes m).length = 8 := by
  simp only [sipLastBytes, List.length_append, length_sipTail, length_zeros, List.length_singleton]
  omega

/-- The zeros put the length byte at weight 256^7, whatever the length of the tail. -/
theorem natLE_sipLastBytes (m : Bytes) :
    natLE (sipLastBytes m) = natLE (sipTail m) + 2 ^ 56 * (m.length % 256) := by
  have hseven : (sipTail m ++ zeros (7 - m.length % 8)).length = 7 := by
    rw [List.length_append, length_sipTail, length_zeros]
    omega
  rw [sipLastBytes, natLE_append, hseven, natLE_append, natLE_zeros]
  simp [natLE]

/-- The tail stays below the length byte. -/
theorem natLE_sipTail_lt (m : Bytes) : natLE (sipTail m) < 2 ^ 56 :=
  calc natLE (sipTail m) < 256 ^ (m.length % 8) := by simpa using natLE_lt (sipTail m)
    _ ≤ 256 ^ 7 := Nat.pow_le_pow_right (by decide) (by omega)

/-- The `|` of R292 joins disjoint bits, so it adds, and the last word is the number of its bytes. -/
theorem toNat_sipLast (m : Bytes) : (sipLast m).toNat = natLE (sipLastBytes m) := by
  have htail := natLE_sipTail_lt m
  have hlen : (BitVec.ofNat 64 (m.length % 256) <<< 56).toNat = (m.length % 256) <<< 56 := by
    rw [BitVec.toNat_shiftLeft, BitVec.toNat_ofNat, Nat.shiftLeft_eq, Nat.shiftLeft_eq]
    omega
  have hlow : (BitVec.ofNat 64 (natLE (sipTail m))).toNat = natLE (sipTail m) := by
    rw [BitVec.toNat_ofNat]
    omega
  rw [sipLast, slice_eq_sipTail, BitVec.toNat_or, hlen, hlow, ← Nat.shiftLeft_add_eq_or_of_lt htail,
    natLE_sipLastBytes, Nat.shiftLeft_eq]
  omega

theorem bytesLE_sipLast (m : Bytes) : bytesLE (sipLast m) = sipLastBytes m := by
  have hlen : 64 / 8 = (sipLastBytes m).length := (length_sipLastBytes m).symm
  rw [bytesLE, toNat_sipLast, hlen, natBytesLE_natLE]

end Sys2Proof.Machine
end

section
/-! The statement about SipHash (45_siphash.md). -/

namespace Sys2Proof.Proofs

open Machine Claims

/-- Settles O36: the full words carry the message up to its tail, the last word carries the tail, the zeros and
the length byte. -/
theorem sipHashWords : Obligations.SipHashWords := by
  intro m
  have hjoin : m.take (8 * (m.length / 8)) ++ sipTail m = m := List.take_append_drop _ m
  calc (sipWords m ++ [sipLast m]).flatMap bytesLE
      = m.take (8 * (m.length / 8)) ++ sipLastBytes m := by
        rw [List.flatMap_append, flatMap_bytesLE_sipWords, List.flatMap_singleton, bytesLE_sipLast]
    _ = (m.take (8 * (m.length / 8)) ++ sipTail m) ++ zeros (7 - m.length % 8) ++
          [BitVec.ofNat 8 m.length] := by
        simp only [sipLastBytes, List.append_assoc]
    _ = m ++ zeros (7 - m.length % 8) ++ [BitVec.ofNat 8 m.length] := by rw [hjoin]

end Sys2Proof.Proofs
end

section
/-! The seeds of Murmur3 and xxHash (40_common.md R147): the parameters and the AUX bytes reach a digest only
through the seed word. -/

namespace Sys2Proof.Machine

theorem readLE_zeros (w : Nat) : readLE w (zeros (w / 8)) 0 = 0#w := by
  rw [readLE_whole (length_zeros _), natLE_zeros]

/-- Without the seed flag the AUX bytes are not read. -/
theorem seed32_of_unseeded {p : Params} (hp : p.mode ≠ 1) (a : Bytes) : seed32 p a = 0 := if_neg hp

theorem seed64_of_unseeded {p : Params} (hp : p.mode ≠ 1) (a : Bytes) : seed64 p a = 0 := if_neg hp

/-- Four zero bytes are the seed 0, whether or not the parameters ask for a seed. -/
theorem seed32_zeros (p : Params) : seed32 p (zeros 4) = 0 := by
  by_cases hp : p.mode = 1
  · exact (if_pos hp).trans (readLE_zeros 32)
  · exact seed32_of_unseeded hp _

theorem seed64_zeros (p : Params) : seed64 p (zeros 8) = 0 := by
  by_cases hp : p.mode = 1
  · exact (if_pos hp).trans (readLE_zeros 64)
  · exact seed64_of_unseeded hp _

/-- The algorithms with a 32-bit seed (R147). -/
def seed32Algs : List Alg := [.murmur3_32, .murmur3_128, .xxh32]

theorem digest_congr_seed32 {alg : Alg} (h : alg ∈ seed32Algs) {p q : Params} {a b : Bytes}
    (hs : seed32 p a = seed32 q b) (m : Bytes) : digest alg p a m = digest alg q b m := by
  simp only [seed32Algs, List.mem_cons, List.not_mem_nil, or_false] at h
  obtain rfl | rfl | rfl := h
  · exact congrArg (fun s => bytesLE (murmur3x32 m s)) hs
  · exact congrArg (fun s => pairBytes (murmur3x128 m s)) hs
  · exact congrArg (fun s => bytesLE (xxh32 m s)) hs

theorem digest_xxh64_congr_seed64 {p q : Params} {a b : Bytes} (hs : seed64 p a = seed64 q b)
    (m : Bytes) : digest .xxh64 p a m = digest .xxh64 q b m :=
  congrArg (fun s => bytesLE (xxh64 m s)) hs

/-- A stored 32-bit seed of 0 against no seed, whatever the other parameters and AUX bytes of the unseeded
form. -/
theorem digest_zero_seed32 {alg : Alg} (h : alg ∈ seed32Algs) (p : Params) {q : Params} (hq : q.mode ≠ 1)
    (b m : Bytes) : digest alg p (zeros 4) m = digest alg q b m :=
  digest_congr_seed32 h ((seed32_zeros p).trans (seed32_of_unseeded hq b).symm) m

theorem digest_zero_seed64 (p : Params) {q : Params} (hq : q.mode ≠ 1) (b m : Bytes) :
    digest .xxh64 p (zeros 8) m = digest .xxh64 q b m :=
  digest_xxh64_congr_seed64 ((seed64_zeros p).trans (seed64_of_unseeded hq b).symm) m

end Sys2Proof.Machine
end

section
/-! The statement about Murmur3 and xxHash (46_murmur3_xxhash.md). -/

namespace Sys2Proof.Proofs

open Machine Claims

/-- Settles O37: each digest depends on the parameters and AUX only through the seed word, and a stored 0 and
no seed give the same word. -/
theorem zeroSeedIsNoSeed : Obligations.ZeroSeedIsNoSeed := by
  intro m
  have hno : ({} : Params).mode ≠ 1 := by decide
  exact ⟨digest_zero_seed32 (by decide) _ hno [] m, digest_zero_seed32 (by decide) _ hno [] m,
    digest_zero_seed32 (by decide) _ hno [] m, digest_zero_seed64 _ hno [] m⟩

end Sys2Proof.Proofs
end

section
/-! CityHash64 and FarmHash64 by message length (47_city_farm.md R359, R372), in the two classes where they
share their formula. -/

namespace Sys2Proof.Machine

variable {m : Bytes}

/-- R359, the first threshold. -/
theorem city64_of_length_le_16 (h : m.length ≤ 16) : city64 m = hashLen0to16 m 0 m.length := if_pos h

/-- R359, the second threshold. -/
theorem city64_of_length_17_to_32 (hlo : ¬m.length ≤ 16) (hhi : m.length ≤ 32) :
    city64 m = hashLen17to32 m m.length :=
  (if_neg hlo).trans (if_pos hhi)

/-- R372, the first threshold. -/
theorem farm64_of_length_le_16 (h : m.length ≤ 16) : farm64 m = hashLen0to16 m 0 m.length := if_pos h

/-- R372, the second threshold. -/
theorem farm64_of_length_17_to_32 (hlo : ¬m.length ≤ 16) (hhi : m.length ≤ 32) :
    farm64 m = hashLen17to32 m m.length :=
  (if_neg hlo).trans (if_pos hhi)

end Sys2Proof.Machine
end

section
/-! The statement about CityHash and FarmHash (47_city_farm.md). -/

namespace Sys2Proof.Proofs

open Machine Claims

/-- Settles O38: below 33 bytes there are two classes of length, and in each both hashes are the same shared
formula (R352, R353). -/
theorem farmIsCityUpTo32 : Obligations.FarmIsCityUpTo32 := by
  intro m h32
  by_cases h16 : m.length ≤ 16
  · exact (farm64_of_length_le_16 h16).trans (city64_of_length_le_16 h16).symm
  · exact (farm64_of_length_17_to_32 h16 h32).trans (city64_of_length_17_to_32 h16 h32).symm

end Sys2Proof.Proofs
end

section
/-! Command-list control (49_control.md): the checks of a jump and of a command without operands, said once for
each of the two shapes, and the one effect that ends a run. -/

namespace Sys2Proof.Machine

open Claims

/-! ### The checks of a command, one after the other -/

section Checks

variable {i : Instr} {s : State} {done : Prop}

theorem checked_nil (h : done) : Checked i s [] done := h

theorem checked_cons {code : BitVec 8} {bad : Prop} {rest : List (BitVec 8 × Prop)}
    (hbad : bad → Faults i s code) (hrest : ¬bad → Checked i s rest done) :
    Checked i s ((code, bad) :: rest) done :=
  ⟨hbad, hrest⟩

theorem faults_of_error {c : ErrCode} (h : effectOf i s = .error c) : Faults i s (errNumber c) :=
  exec_of_error h

end Checks

/-- The decoder takes ALG = 0 alone on an operation that is not a hash operation (R109). -/
theorem rejectsAnyAlg {op : Op} (h : op.isHashOp = false) : RejectsAnyAlg (opCode op) := by
  intro d hop halg
  have hplain : ¬isHashOp (opCode op) := by simp [isHashOp_opCode, h]
  obtain ⟨-, -, hreserved⟩ := Proofs.decodeRejects d
  exact hreserved.2 ⟨hop ▸ opCode_mem_opCodes op, hop ▸ hplain, halg⟩

/-! ### Jumps -/

/-- The operations that jump (R410 to R412). -/
abbrev jumpOps : List Op := [.jump, .jmatch, .jnmatch]

/-- A jump uses TARGET and no other field (R107). -/
theorem reservedBad_jump {op : Op} (h : op ∈ jumpOps) (o : Operands) :
    reservedBad op none o = true ↔ reservedFails (opCode op) 0 o := by
  have hused : usedFields op none o = { src := o.src } := by revert h; cases op <;> simp [usedFields]
  have hcode : opCode op = 0x20#8 ∨ opCode op = 0x21#8 ∨ opCode op = 0x22#8 := by
    revert h; cases op <;> simp [opCode]
  obtain ⟨ctx, param, klen, src, len, dst, aux, xlen, rsv0, rsv1⟩ := o
  simp only [reservedBad, hused, bne_iff_ne, ne_eq, Operands.mk.injEq]
  rcases hcode with hcode | hcode | hcode <;> rw [hcode] <;> grind [reservedFails]

/-- A jump has no parameter, so the field check is the one of its reserved fields. -/
theorem fieldFault_jump {op : Op} (h : op ∈ jumpOps) {o : Operands}
    (hr : ¬reservedFails (opCode op) 0 o) : fieldFault op none o = none := by
  have hparam : paramBad op none o = false := by revert h; cases op <;> simp [paramBad]
  exact fieldFault_eq_none.2 ⟨Bool.eq_false_iff.2 (mt (reservedBad_jump h o).1 hr), hparam⟩

/-- The checks of a jump are made before it is decided whether the jump is taken (R410 to R412). -/
theorem checked_jump {i : Instr} {s : State} {op : Op} {taken : Bool} {o : Operands} (h : op ∈ jumpOps)
    (heff : effectOf i s = jumpEffect op taken o) :
    Checked i s [(0x05#8, reservedFails (opCode op) 0 o), (0x07#8, o.src.toNat % 32 ≠ 0)]
      (exec i s = .next { s with cmdPtr := if taken then o.src else s.cmdPtr + 32#32 }) := by
  refine checked_cons (fun hr => ?_) fun hr => ?_
  · have hfield := fieldFault_reserved ((reservedBad_jump h _).2 hr)
    exact faults_of_error (heff.trans (jumpEffect_error.2 (.inl hfield)))
  have hfield := fieldFault_jump h hr
  refine checked_cons (fun halign => ?_) fun halign => checked_nil ?_
  · exact faults_of_error (heff.trans (jumpEffect_error.2 (.inr ⟨hfield, halign, rfl⟩)))
  · rw [exec_of_ok (heff.trans (jumpEffect_ok.2 ⟨hfield, Decidable.not_not.1 halign, rfl⟩))]
    cases taken <;> rfl

/-! ### NOP and STOP -/

/-- NOP and STOP fault exactly when some field is not 0 (R413, R414). -/
theorem fieldFault_plain {op : Op} (h : op = .nop ∨ op = .stop) (o : Operands) :
    fieldFault op none o = if o = {} then none else some .reserved := by
  rcases h with rfl | rfl <;> simp [fieldFault, reservedBad, usedFields, paramBad]

theorem checked_plain {i : Instr} {s : State} {op : Op} {e : Effect} {o : Operands}
    (h : op = .nop ∨ op = .stop) (heff : effectOf i s = plainEffect op e o) :
    Checked i s [(0x05#8, o ≠ {})] (exec i s = .next (s.commit e)) := by
  have hfield := fieldFault_plain h o
  refine checked_cons (fun hne => ?_) fun hzero => checked_nil ?_
  · rw [if_neg hne] at hfield
    exact faults_of_error (heff.trans (plainEffect_error.2 hfield))
  · rw [if_pos (Decidable.not_not.1 hzero)] at hfield
    exact exec_of_ok (heff.trans (plainEffect_ok.2 ⟨hfield, rfl⟩))

/-! ### The end of a run -/

/-- Of the effects only the one of STOP ends the run (R414). -/
theorem OkCase.op_of_stop {i : Instr} {s : State} {e : Effect} (h : OkCase i s e) (hstop : e.stop = true) :
    i.op = .stop := by
  cases h with
  | stop hop => exact hop
  | result | verify | slot | final | jump | nop => cases hstop

/-- A command that ends the run without a fault is STOP with every field 0 (R414). -/
theorem eq_stop_of_effect {i : Instr} {s : State} {e : Effect} (h : effectOf i s = .ok e)
    (hstop : e.stop = true) : i = .stop {} := by
  have hop := (okCase_of_ok h).op_of_stop hstop
  cases i with
  | stop o =>
    obtain ⟨hfield, -⟩ := plainEffect_ok.1 h
    rw [fieldFault_plain (.inr rfl)] at hfield
    exact congrArg Instr.stop (by simpa using hfield)
  | _ => cases hop

/-- During a run neither DONE nor ERR is set (R48). -/
theorem status_of_busy {s : State} (hs : s.inv = true) (hb : s.busy = true) :
    s.done = false ∧ s.err = false := by
  obtain ⟨-, hstatus, -, -⟩ := inv_iff.1 hs
  obtain ⟨hbusy, -⟩ := statusOk_iff.1 hstatus
  exact hbusy hb

end Sys2Proof.Machine
end

section
/-! The statements about command-list control (49_control.md). -/

namespace Sys2Proof.Proofs

open Machine Claims

/-- Settles O44: a jump that is always taken. -/
theorem jumpRule : Obligations.JumpRule :=
  ⟨rejectsAnyAlg (op := .jump) rfl, fun _ _ => checked_jump (op := .jump) (taken := true) (by decide) rfl⟩

/-- Settles O45: a jump taken when MATCH = 1. -/
theorem jmatchRule : Obligations.JmatchRule :=
  ⟨rejectsAnyAlg (op := .jmatch) rfl, fun _ _ => checked_jump (op := .jmatch) (by decide) rfl⟩

/-- Settles O46: a jump taken when MATCH = 0. -/
theorem jnmatchRule : Obligations.JnmatchRule := by
  refine ⟨rejectsAnyAlg (op := .jnmatch) rfl, fun o s => ?_⟩
  have hptr (p q : Word) : (if s.matched then p else q) = if !s.matched then q else p := by
    cases s.matched <;> rfl
  rw [hptr]
  exact checked_jump (op := .jnmatch) (by decide) rfl

/-- Settles O47: a command without operands and without an effect. -/
theorem nopRule : Obligations.NopRule :=
  ⟨rejectsAnyAlg (op := .nop) rfl, fun _ _ => checked_plain (op := .nop) (e := {}) (.inl rfl) rfl⟩

/-- Settles O48: a command without operands, whose effect is the end of the run. -/
theorem stopRule : Obligations.StopRule :=
  ⟨rejectsAnyAlg (op := .stop) rfl,
    fun _ _ => checked_plain (op := .stop) (e := { stop := true }) (.inr rfl) rfl⟩

/-- Settles O49: an abort and a fault set ERR and keep DONE = 0, and the one effect that clears BUSY is STOP's,
which sets DONE and keeps ERR = 0. -/
theorem runEndsOneWay : Obligations.RunEndsOneWay := by
  refine ⟨fun s t hs hb hstep hend => ?_, fun s hs hb ha halign hrange => ?_⟩
  · obtain ⟨hdone, herr⟩ := status_of_busy hs hb
    rcases step_next hstep with ⟨hidle, -⟩ | ⟨-, -, rfl⟩ | ⟨-, -, c, -, rfl⟩ | ⟨-, -, i, hi, hexec⟩
    · exact absurd (hb.symm.trans hidle) nofun
    · exact .inr ⟨hdone, rfl⟩
    · exact .inr ⟨by simpa using hdone, rfl⟩
    · rcases exec_next hexec with ⟨e, he, rfl⟩ | ⟨c, -, rfl⟩
      · have hstop : e.stop = true := by simpa [hb] using hend
        exact .inl ⟨by simp [hstop], by simpa using herr, by rw [hi, eq_stop_of_effect he hstop]⟩
      · exact .inr ⟨by simpa using hdone, rfl⟩
  · obtain ⟨hdone, -⟩ := status_of_busy hs hb
    have hfetch : s.settle.fetch = .error .fetchRange :=
      fetch_error.2 (.inr ⟨by simpa using halign, by simpa using hrange, rfl⟩)
    exact ⟨_, step_error hb ha (command_error.2 (.inl hfetch)), rfl, by simpa using hdone, rfl, rfl⟩

end Sys2Proof.Proofs
end

section
/-! What resets, faults and the host's accesses during a run leave (60_exceptions.md, 70_reset_and_hazards.md),
in the terms of the statements. -/

namespace Sys2Proof.Machine

open Claims

/-! ### Faults -/

/-- The statements' fault state is what the model's fault entry leaves (R432). -/
theorem raiseFault_eq_faultState (s : State) (c : ErrCode) : s.raiseFault c = faultState s (errNumber c) := rfl

/-- A step that sets ERR takes a fault, in the state as it is when no byte is of unknown value (R433). -/
theorem StepCase.eq_raiseFault {s t : State} (h : StepCase s t) (hclean : s.clean = true)
    (herr : s.err = false) (ht : t.err = true) : ∃ c, t = s.raiseFault c := by
  cases h with
  | idle => exact absurd (herr.symm.trans ht) nofun
  | abort => exact ⟨.abort, rfl⟩
  | fault c => exact ⟨c, by rw [settle_of_clean hclean]⟩
  | done i e => exact absurd ht (by simp [herr])

/-- A START after a fault of a running core gives back the state that the fault was taken in, but for IRQ_EN,
ERRPTR and the abort latch (R436). -/
theorem writeCtrl_raiseFault {s : State} {v : Word} (hinv : s.inv = true) (hb : s.busy = true)
    (hv : v.getLsbD 0 = true) (c : ErrCode) :
    (s.raiseFault c).writeCtrl v =
      { s with irqEn := v.getLsbD 2, errPtr := s.cmdPtr, abortPend := false } := by
  obtain ⟨-, hstatus, -, -⟩ := inv_iff.1 hinv
  obtain ⟨-, -, -, hcode, -⟩ := statusOk_iff.1 hstatus
  obtain ⟨hdone, herr⟩ := status_of_busy hinv hb
  have hzero := hcode herr
  rw [writeCtrl_start (raiseFault_busy s c) hv]
  cases s
  simp_all [State.raiseFault]

/-! ### The end of a run -/

/-- A run that ends sets DONE or ERR and leaves IRQ_EN alone (R414, R432, R435). -/
theorem StepCase.irq_of_end {s t : State} (h : StepCase s t) (hb : s.busy = true) (hend : t.busy = false) :
    t.irqEn = s.irqEn ∧ (t.done = true ∨ t.err = true) := by
  cases h with
  | idle => exact absurd (hb.symm.trans hend) nofun
  | abort => exact ⟨rfl, .inr rfl⟩
  | fault c => exact ⟨by simp, .inr rfl⟩
  | done i e =>
    have hstop : e.stop = true := by simpa [hb] using hend
    exact ⟨by simp, .inl (by simp [hstop])⟩

theorem irq_iff (s : State) : s.irq = true ↔ s.irqEn = true ∧ (s.done = true ∨ s.err = true) := by
  simp [State.irq]

/-! ### Waking an idle core -/

/-- Of the events only a write of START wakes an idle core (R456). -/
theorem EventCase.start_of_wake {e : Event} {s t : State} (h : EventCase s e t) (hidle : s.busy = false)
    (hwake : t.busy = true) : ∃ v : Word, e = .writeReg 0x08 4 v ∧ v.getLsbD 0 = true := by
  cases h with
  | core _ hstep =>
    cases hstep with
    | idle => exact absurd (hidle.symm.trans hwake) nofun
    | abort hb | fault c hb | done i e hb => exact absurd (hidle.symm.trans hb) nofun
  | writeCtrl v => exact ⟨v, rfl, by simpa [hidle] using hwake⟩
  | reset => cases hwake
  | poll off size hb | readMemBusy a n hb | writeMemBusy a bs hb => exact absurd (hidle.symm.trans hb) nofun
  | readReg | writeIgnored => exact absurd (hidle.symm.trans hwake) nofun
  | writeStatus | writeCmdPtr | readMemIdle | writeMemIdle => simp [hidle] at hwake

/-! ### The host at DMEM during a run -/

theorem hostReadMem_busy {s : State} {a n : Nat} (hb : s.busy = true) (hr : InRange s a n) :
    hostReadMem a n s =
      .next ((addrRange a n).map (Config.anyByte s.draws), { s with draws := s.draws + 1 }) := by
  simp [hostReadMem, inRange_iff.2 hr, hb]

theorem hostWriteMem_busy {s : State} {a : Nat} {bs : Bytes} (hb : s.busy = true)
    (hr : InRange s a bs.length) : hostWriteMem a bs s = .next (s.spoil a bs.length) := by
  simp [hostWriteMem, inRange_iff.2 hr, hb, State.spoil]

@[simp] theorem length_addrRange (a n : Nat) : (addrRange a n).length = n := by simp [addrRange]

/-- Settling changes no byte but the spoiled ones (R492). -/
theorem read_settle {s : State} {x : Nat} (h : x ∉ s.spoiled) :
    Memory.read s.settle.dmem x = Memory.read s.dmem x := by
  rw [settle_dmem]
  exact Memory.read_drawAll_out _ _ _ h

theorem mem_spoiled_hostStore {s : State} {a x : Nat} {bs : Bytes} :
    x ∈ (s.hostStore a bs).spoiled ↔ x ∈ s.spoiled ∧ ¬(a ≤ x ∧ x < a + bs.length) := by
  simp only [hostStore_spoiled, List.mem_filter, Bool.not_eq_true', Bool.and_eq_false_iff,
    decide_eq_false_iff_not, Decidable.not_and_iff_not_or_not]

/-- After the host's store at BUSY = 0 the bytes stored are certain again (R492). -/
theorem memRead_settle_hostStore {s : State} (hwf : Memory.wf s.dmem = true) (a : Nat) (bs : Bytes) :
    (s.hostStore a bs).settle.memRead a bs.length = bs := by
  have hkept : ∀ x, a ≤ x → x < a + bs.length →
      Memory.read (s.hostStore a bs).settle.dmem x = Memory.read (s.hostStore a bs).dmem x :=
    fun x hle hlt => read_settle fun hmem => (mem_spoiled_hostStore.1 hmem).2 ⟨hle, hlt⟩
  calc (s.hostStore a bs).settle.memRead a bs.length
      = (s.hostStore a bs).memRead a bs.length := Memory.readBytes_congr hkept
    _ = bs := (wrote_hostStore hwf a bs).1

/-! ### Reset -/

theorem slot_poweredOn (size : Nat) (init : Memory) (c : BitVec 3) :
    (State.poweredOn size init).slot c = Slot.reset := by
  simp [State.slot]

theorem resetRegisters_poweredOn (size : Nat) (init : Memory) : resetRegisters (State.poweredOn size init) :=
  ⟨rfl, rfl, BitVec.eq_of_toNat_eq (status_toNat _), rfl, rfl, rfl, rfl, rfl, rfl, rfl, rfl, rfl,
    fun c => by rw [slot_poweredOn]; rfl, rfl, rfl, step_idle rfl⟩

/-- A reset with power held leaves the registers and slots of a power-on (R480, R482). -/
theorem resetRegisters_platformReset (s : State) : resetRegisters s.platformReset :=
  ⟨rfl, rfl, BitVec.eq_of_toNat_eq (status_toNat _), rfl, rfl, rfl, rfl, rfl, rfl, rfl, rfl, rfl,
    fun c => congrArg Slot.state (slot_poweredOn s.memSize [] c), rfl, rfl, step_idle rfl⟩

/-- While idle no command is in progress. -/
theorem inProgress_idle {s : State} (h : s.busy = false) : s.inProgress = [] := by
  simp [State.inProgress, h]

/-- Settling leaves the slots, so it leaves the length of a command's result. -/
theorem storedBytes_settle (i : Instr) (s : State) : storedBytes i s.settle = storedBytes i s := by
  simp only [storedBytes, State.slot, settle_slots]

/-- A byte in progress lies in the result of the command at CMDPTR, which is one that stores (R482). -/
theorem storing_of_mem_inProgress {s : State} {x : Nat} (h : x ∈ s.inProgress) :
    ∃ i, s.settle.command = .ok i ∧ i.op ∈ storeOps ∧
      i.operands.dst.toNat ≤ x ∧ x < i.operands.dst.toNat + storedBytes i s := by
  obtain ⟨i, -, hi, -, hx⟩ := mem_inProgress h
  rw [storeRange_eq, storedBytes_settle] at hx
  by_cases hop : i.op ∈ storeOps
  · rw [if_pos hop, mem_addrRange] at hx
    exact ⟨i, hi, hop, hx⟩
  · rw [if_neg hop] at hx
    exact absurd hx List.not_mem_nil

end Sys2Proof.Machine
end

section
/-! The checks of R434 one by one: each check of the statements, which read the raw bits of the descriptor, is
the model's check of the decoded command. -/

namespace Sys2Proof.Machine

open Claims

/-! ### The fields of the descriptor (R107, R110, R114) -/

theorem auxLen_eq_auxBytes (a : Alg) (o : Operands) : auxLen a o = auxBytes (algCode a) o := by
  cases a <;> rfl

/-- The fields that R110 marks 0 for an algorithm are those that `algFields` clears. -/
theorem algReserved_iff (a : Alg) (o : Operands) :
    algReserved (algCode a) o ↔
      ¬(o.param = (algFields a o).param ∧ o.klen = (algFields a o).klen ∧ o.aux = (algFields a o).aux ∧
        o.xlen = (algFields a o).xlen) := by
  cases a with
  | md5 | sha1 | sha256 | sha384 | blake3 | siphash =>
    simp [algReserved, algCode, algFields, not_and_or, -not_and]
  | blake2b =>
    by_cases hklen : o.klen = 0#8 <;>
      simp [algReserved, algCode, algFields, hklen, not_and_or, -not_and]
  | murmur3_32 | murmur3_128 | xxh32 | xxh64 | city64 | city128 | farm64 =>
    by_cases hparam : o.param = 0#8 <;>
      simp [algReserved, algCode, algFields, hparam, not_and_or, -not_and]

/-- `algFields` leaves no other field. -/
theorem algFields_rest (a : Alg) (o : Operands) :
    (algFields a o).ctx = 0 ∧ (algFields a o).src = 0 ∧ (algFields a o).len = 0 ∧
      (algFields a o).dst = 0 ∧ (algFields a o).rsv0 = 0 ∧ (algFields a o).rsv1 = 0 := by
  cases a <;> exact ⟨rfl, rfl, rfl, rfl, rfl, rfl⟩

theorem eq_and_0xC0_iff (p : BitVec 8) : p = p &&& 0xC0#8 ↔ p.toNat % 64 = 0 := by
  revert p
  decide

/-- The reserved fields of a command, as the model and as the statements find them (R107, R109). -/
theorem reservedBad_iff {op : Op} {a : Option Alg} (ha : a.isSome = op.isHashOp) (o : Operands) :
    reservedBad op a o = true ↔ reservedFails (opCode op) (algField a) o := by
  rw [reservedBad, bne_iff_ne]
  obtain ⟨ctx, param, klen, src, len, dst, aux, xlen, rsv0, rsv1⟩ := o
  cases op with
  | hash | verify | init =>
    obtain ⟨a, rfl⟩ := Option.isSome_iff_exists.1 ha
    have hrest := algFields_rest a ⟨ctx, param, klen, src, len, dst, aux, xlen, rsv0, rsv1⟩
    have hfields := algReserved_iff a ⟨ctx, param, klen, src, len, dst, aux, xlen, rsv0, rsv1⟩
    simp only [usedFields, ne_eq, Operands.mk.injEq, hrest, reservedFails, opCode, algField, hfields]
    grind
  | update | final =>
    simp only [usedFields, ne_eq, Operands.mk.injEq, reservedFails, opCode]
    grind
  | bswap =>
    obtain rfl : a = none := by simpa [Op.isHashOp] using ha
    simp only [usedFields, ne_eq, Operands.mk.injEq, reservedFails, opCode, eq_and_0xC0_iff, algField]
    grind
  | rotl | rotr | mul128 | jump | jmatch | jnmatch | nop | stop =>
    obtain rfl : a = none := by simpa [Op.isHashOp] using ha
    simp only [usedFields, ne_eq, Operands.mk.injEq, reservedFails, opCode, algField]
    grind

/-- Illegal values of PARAM and KLEN (R110). -/
theorem algParamBad_iff (a : Alg) (o : Operands) :
    algParamBad a o = true ↔ algParamFails (algCode a) o := by
  cases a <;> simp [algParamBad, algParamFails, algCode]

/-- The width code 0 is the width of 8 bits (R114). -/
theorem widthCode_eq_zero_iff (o : Operands) : widthCode o = 0 ↔ width o = 8 := by
  unfold widthCode width
  grind

/-- Illegal parameters of a command, as the model and as the statements find them (R110, R114). -/
theorem paramBad_iff {op : Op} {a : Option Alg} (ha : a.isSome = op.isHashOp) (o : Operands) :
    paramBad op a o = true ↔ paramFails (opCode op) (algField a) o := by
  cases op with
  | hash | verify | init =>
    obtain ⟨a, rfl⟩ := Option.isSome_iff_exists.1 ha
    exact algParamBad_iff a o
  | rotl | rotr => simp [paramBad, paramFails, opCode, opWidth_eq_width, rotAmount, amount]
  | bswap => simp [paramBad, paramFails, opCode, widthCode_eq_zero_iff]
  | update | final | mul128 | jump | jmatch | jnmatch | nop | stop => simp [paramBad, paramFails, opCode]

theorem hashRanges_iff_hashInRange (a : Alg) (o : Operands) (s : State) :
    hashRanges a o s = true ↔ hashInRange (algCode a) o s := by
  simp only [hashRanges_iff, inRange_iff, auxLen_eq_auxBytes, outLen_decodeParams, hashInRange]

theorem primRanges_iff_inRange (o : Operands) (s : State) :
    primRanges o s (opBytes o) = true ↔
      InRange s o.src.toNat (width o / 8) ∧ InRange s o.dst.toNat (width o / 8) := by
  simp only [primRanges_iff, inRange_iff, opBytes, opWidth_eq_width]

theorem isSome_alg (i : Instr) : i.alg.isSome = i.op.isHashOp := by
  cases i <;> rfl

/-- An algorithm on an operation that takes none is a reserved field that is not 0 (R109). -/
theorem reservedFails_of_alg {op : BitVec 8} {alg : BitVec 5} (hop : ¬isHashOp op) (halg : alg ≠ 0)
    (o : Operands) : reservedFails op alg o := by
  have hne : op ≠ 0x01#8 ∧ op ≠ 0x02#8 ∧ op ≠ 0x03#8 ∧ op ≠ 0x04#8 ∧ op ≠ 0x05#8 := by
    refine ⟨?_, ?_, ?_, ?_, ?_⟩ <;> rintro rfl <;> exact hop ⟨by decide, by decide⟩
  simp only [reservedFails, hne, or_self, if_false]
  exact .inr (.inr (.inl halg))

/-! ### The checks of a decoded command -/

theorem opCode_eq_iff {op op' : Op} : opCode op = opCode op' ↔ op = op' :=
  ⟨opCode_inj, congrArg opCode⟩

section Decoded

variable {s : State} {i : Instr}

/-- The command at CMDPTR, when the fetch and the decoder let it through (R434, items 2 to 5). -/
abbrev DecodesTo (s : State) (i : Instr) : Prop := decode (s.memRead s.cmdPtr.toNat 32) = .ok i

theorem checkFails_reserved (h : DecodesTo s i) :
    checkFails s .reserved ↔ reservedBad i.op i.alg i.operands = true := by
  obtain ⟨hop, halg, ho⟩ := decode_ok_iff.1 h
  rw [reservedBad_iff (isSome_alg i), ← hop, ← halg, ← ho]
  rfl

theorem checkFails_param (h : DecodesTo s i) :
    checkFails s .param ↔ paramBad i.op i.alg i.operands = true := by
  obtain ⟨hop, halg, ho⟩ := decode_ok_iff.1 h
  rw [paramBad_iff (isSome_alg i), ← hop, ← halg, ← ho]
  rfl

theorem checkFails_targetAlign (h : DecodesTo s i) :
    checkFails s .targetAlign ↔ i.op ∈ jumpOps ∧ i.operands.src.toNat % 32 ≠ 0 := by
  obtain ⟨hop, -, ho⟩ := decode_ok_iff.1 h
  have hcode : i.op ∈ jumpOps ↔
      opField (s.memRead s.cmdPtr.toNat 32) = opCode .jump ∨
        opField (s.memRead s.cmdPtr.toNat 32) = opCode .jmatch ∨
        opField (s.memRead s.cmdPtr.toNat 32) = opCode .jnmatch := by
    simp [hop, opCode_eq_iff]
  rw [hcode, ← ho]
  rfl

/-- UPDATE and FINAL by their codes (R104). -/
theorem slotOp_iff (h : DecodesTo s i) :
    (i.op = .update ∨ i.op = .final) ↔
      opField (s.memRead s.cmdPtr.toNat 32) = 0x04#8 ∨ opField (s.memRead s.cmdPtr.toNat 32) = 0x05#8 := by
  obtain ⟨hop, -, -⟩ := decode_ok_iff.1 h
  rw [hop, ← opCode_eq_iff, ← opCode_eq_iff]
  rfl

theorem checkFails_ctxState (h : DecodesTo s i) :
    checkFails s .ctxState ↔
      (i.op = .update ∨ i.op = .final) ∧ (s.slot i.operands.ctx).state ≠ .active := by
  obtain ⟨-, -, ho⟩ := decode_ok_iff.1 h
  rw [slotOp_iff h, ← ho]
  rfl

theorem checkFails_ctxAlg (h : DecodesTo s i) :
    checkFails s .ctxAlg ↔
      (i.op = .update ∨ i.op = .final) ∧ some (s.slot i.operands.ctx).alg ≠ i.alg := by
  obtain ⟨-, halg, ho⟩ := decode_ok_iff.1 h
  have hcode (a : Alg) : some a ≠ i.alg ↔ algCode a ≠ algBits (s.memRead s.cmdPtr.toNat 32) := by
    rw [halg]
    exact not_congr ⟨fun ha => ha ▸ rfl, fun ha => algField_inj ha⟩
  rw [slotOp_iff h, hcode, ← ho]
  rfl

theorem checkFails_range (h : DecodesTo s i) :
    checkFails s .range ↔ rangeFails (opCode i.op) (algField i.alg) i.operands s := by
  obtain ⟨hop, halg, ho⟩ := decode_ok_iff.1 h
  rw [← hop, ← halg, ← ho]
  rfl

theorem checkFails_length (h : DecodesTo s i) :
    checkFails s .length ↔
      i.op = .update ∧
        Config.maxTotal < (s.slot i.operands.ctx).msg.length + i.operands.len.toNat := by
  obtain ⟨hop, -, ho⟩ := decode_ok_iff.1 h
  rw [← opCode_eq_iff, ← hop, ← ho]
  rfl

end Decoded

end Sys2Proof.Machine
end

section
/-! The checks of R434 in their order: a command takes the fault of the first of its checks that fails
(`errorOf_effectOf`), and so does a step (`stepAnswers_firstFailing`). -/

namespace Sys2Proof.Machine

open Claims

/-! ### The first failing check -/

open scoped Classical in
/-- The first check of a list that fails. -/
noncomputable def firstFailing (P : ErrCode → Prop) (es : List ErrCode) : Option ErrCode :=
  es.find? fun e => decide (P e)

section FirstFailing

variable {P : ErrCode → Prop} {e : ErrCode} {es : List ErrCode}

@[simp] theorem firstFailing_nil : firstFailing P [] = none := rfl

theorem firstFailing_cons_of_fails (h : P e) : firstFailing P (e :: es) = some e := by
  simp [firstFailing, h]

theorem firstFailing_cons_of_passes (h : ¬P e) : firstFailing P (e :: es) = firstFailing P es := by
  simp [firstFailing, h]

theorem firstFailing_eq_none : firstFailing P es = none ↔ ∀ e ∈ es, ¬P e := by
  simp [firstFailing]

theorem firstFailing_append_cons {before after : List ErrCode} (hbefore : ∀ e ∈ before, ¬P e) (h : P e) :
    firstFailing P (before ++ e :: after) = some e := by
  induction before with
  | nil => exact firstFailing_cons_of_fails h
  | cons b before ih =>
    rw [List.cons_append, firstFailing_cons_of_passes (hbefore b (by simp))]
    exact ih fun e he => hbefore e (by simp [he])

end FirstFailing

/-! ### The fault of a command -/

/-- The fault of an outcome, if it is one. -/
def errorOf {α : Type} : Except ErrCode α → Option ErrCode
  | .ok _ => none
  | .error c => some c

theorem errorOf_eq_iff {α : Type} {x : Except ErrCode α} {r : Option ErrCode} :
    errorOf x = r ↔ ∀ c, x = .error c ↔ r = some c := by
  cases x <;> cases r <;> simp [errorOf, eq_comm]

/-- The range check, after which a command but UPDATE has no other (R434). -/
def rangeFault (ok : Bool) : Option ErrCode := if ok then none else some .range

theorem rangeFault_eq_some {ok : Bool} {c : ErrCode} :
    rangeFault ok = some c ↔ ok = false ∧ c = .range := by
  cases ok <;> simp [rangeFault, eq_comm]

/-- The length check of UPDATE (R148). -/
def lengthFault (total : Nat) : Option ErrCode := if Config.maxTotal < total then some .length else none

theorem lengthFault_eq_some {total : Nat} {c : ErrCode} :
    lengthFault total = some c ↔ Config.maxTotal < total ∧ c = .length := by
  simp [lengthFault, eq_comm]

/-- The alignment check of a jump (R410 to R412). -/
def alignFault (target : Word) : Option ErrCode :=
  if target.toNat % 32 = 0 then none else some .targetAlign

theorem alignFault_eq_some {target : Word} {c : ErrCode} :
    alignFault target = some c ↔ target.toNat % 32 ≠ 0 ∧ c = .targetAlign := by
  simp [alignFault, eq_comm]

theorem errorOf_hashEffect (a : Alg) (o : Operands) (s : State) :
    errorOf (hashEffect a o s) = (fieldFault .hash (some a) o).or (rangeFault (hashRanges a o s)) :=
  errorOf_eq_iff.2 fun c => by simp only [hashEffect_error, Option.or_eq_some_iff, rangeFault_eq_some]

theorem errorOf_verifyEffect (a : Alg) (o : Operands) (s : State) :
    errorOf (verifyEffect a o s) = (fieldFault .verify (some a) o).or (rangeFault (hashRanges a o s)) :=
  errorOf_eq_iff.2 fun c => by simp only [verifyEffect_error, Option.or_eq_some_iff, rangeFault_eq_some]

theorem errorOf_initEffect (a : Alg) (o : Operands) (s : State) :
    errorOf (initEffect a o s) =
      (fieldFault .init (some a) o).or (rangeFault (s.inRange o.aux.toNat (auxLen a o))) :=
  errorOf_eq_iff.2 fun c => by simp only [initEffect_error, Option.or_eq_some_iff, rangeFault_eq_some]

theorem errorOf_updateEffect (a : Alg) (o : Operands) (s : State) :
    errorOf (updateEffect a o s) =
      (fieldFault .update (some a) o).or ((slotFault a (s.slot o.ctx)).or
        ((rangeFault (s.inRange o.src.toNat o.len.toNat)).or
          (lengthFault ((s.slot o.ctx).msg.length + o.len.toNat)))) :=
  errorOf_eq_iff.2 fun c => by
    have hpass : rangeFault (s.inRange o.src.toNat o.len.toNat) = none ↔
        s.inRange o.src.toNat o.len.toNat = true := by simp [rangeFault]
    simp only [updateEffect_error, Option.or_eq_some_iff, rangeFault_eq_some, lengthFault_eq_some, hpass]

theorem errorOf_finalEffect (a : Alg) (o : Operands) (s : State) :
    errorOf (finalEffect a o s) =
      (fieldFault .final (some a) o).or ((slotFault a (s.slot o.ctx)).or
        (rangeFault (s.inRange o.dst.toNat (outLen (s.slot o.ctx).alg (s.slot o.ctx).prm)))) :=
  errorOf_eq_iff.2 fun c => by simp only [finalEffect_error, Option.or_eq_some_iff, rangeFault_eq_some]

theorem errorOf_rotateEffect (op : Op) (rot : {w : Nat} → BitVec w → Nat → BitVec w) (o : Operands)
    (s : State) :
    errorOf (rotateEffect op rot o s) =
      (fieldFault op none o).or (rangeFault (primRanges o s (opBytes o))) :=
  errorOf_eq_iff.2 fun c => by simp only [rotateEffect_error, Option.or_eq_some_iff, rangeFault_eq_some]

theorem errorOf_bswapEffect (o : Operands) (s : State) :
    errorOf (bswapEffect o s) = (fieldFault .bswap none o).or (rangeFault (primRanges o s (opBytes o))) :=
  errorOf_eq_iff.2 fun c => by simp only [bswapEffect_error, Option.or_eq_some_iff, rangeFault_eq_some]

theorem errorOf_mul128Effect (o : Operands) (s : State) :
    errorOf (mul128Effect o s) =
      (fieldFault .mul128 none o).or (rangeFault
        (s.inRange o.src.toNat 16 && s.inRange o.aux.toNat 16 && s.inRange o.dst.toNat 32)) :=
  errorOf_eq_iff.2 fun c => by simp only [mul128Effect_error, Option.or_eq_some_iff, rangeFault_eq_some]

theorem errorOf_jumpEffect (op : Op) (taken : Bool) (o : Operands) :
    errorOf (jumpEffect op taken o) = (fieldFault op none o).or (alignFault o.src) :=
  errorOf_eq_iff.2 fun c => by simp only [jumpEffect_error, Option.or_eq_some_iff, alignFault_eq_some]

theorem errorOf_plainEffect (op : Op) (e : Effect) (o : Operands) :
    errorOf (plainEffect op e o) = fieldFault op none o :=
  errorOf_eq_iff.2 fun _ => plainEffect_error

/-! ### The checks of a command in their order -/

/-- The checks of R434 after those of the reserved fields and the parameters (items 8 to 12). -/
abbrev laterChecks : List ErrCode := [.targetAlign, .ctxState, .ctxAlg, .range, .length]

/-- The checks of R434 that the command itself makes (items 6 to 12). -/
abbrev commandChecks : List ErrCode := .reserved :: .param :: laterChecks

section Order

variable {s : State} {i : Instr}

/-- The field checks come first (R115). -/
theorem firstFailing_commandChecks (h : DecodesTo s i) :
    firstFailing (checkFails s) commandChecks =
      (fieldFault i.op i.alg i.operands).or (firstFailing (checkFails s) laterChecks) := by
  have hres := checkFails_reserved h
  have hparam := checkFails_param h
  by_cases hr : checkFails s .reserved
  · rw [firstFailing_cons_of_fails hr, fieldFault_reserved (hres.1 hr), Option.some_or]
  rw [firstFailing_cons_of_passes hr]
  have hr' := Bool.eq_false_iff.2 (mt hres.2 hr)
  by_cases hp : checkFails s .param
  · rw [firstFailing_cons_of_fails hp, fieldFault_param hr' (hparam.1 hp), Option.some_or]
  · rw [firstFailing_cons_of_passes hp,
      fieldFault_eq_none.2 ⟨hr', Bool.eq_false_iff.2 (mt hparam.2 hp)⟩, Option.none_or]

/-- A command without TARGET passes the alignment check. -/
theorem firstFailing_not_jump (h : DecodesTo s i) (hop : i.op ∉ jumpOps) (es : List ErrCode) :
    firstFailing (checkFails s) (.targetAlign :: es) = firstFailing (checkFails s) es :=
  firstFailing_cons_of_passes fun hf => hop ((checkFails_targetAlign h).1 hf).1

/-- The slot checks of UPDATE and FINAL (R143, R144). -/
theorem firstFailing_slot {a : Alg} (h : DecodesTo s i) (hop : i.op = .update ∨ i.op = .final)
    (halg : i.alg = some a) (es : List ErrCode) :
    firstFailing (checkFails s) (.ctxState :: .ctxAlg :: es) =
      (slotFault a (s.slot i.operands.ctx)).or (firstFailing (checkFails s) es) := by
  have hstate : checkFails s .ctxState ↔ (s.slot i.operands.ctx).state ≠ .active := by
    simp [checkFails_ctxState h, hop]
  have hsame : checkFails s .ctxAlg ↔ (s.slot i.operands.ctx).alg ≠ a := by
    simp [checkFails_ctxAlg h, hop, halg]
  by_cases hs : checkFails s .ctxState
  · rw [firstFailing_cons_of_fails hs, slotFault_eq_some.2 (.inl ⟨hstate.1 hs, rfl⟩), Option.some_or]
  rw [firstFailing_cons_of_passes hs]
  have hactive := Decidable.not_not.1 (mt hstate.2 hs)
  by_cases ha : checkFails s .ctxAlg
  · rw [firstFailing_cons_of_fails ha, slotFault_eq_some.2 (.inr ⟨hactive, hsame.1 ha, rfl⟩),
      Option.some_or]
  · rw [firstFailing_cons_of_passes ha,
      slotFault_eq_none.2 ⟨hactive, Decidable.not_not.1 (mt hsame.2 ha)⟩, Option.none_or]

/-- A command that reads no slot passes the slot checks. -/
theorem firstFailing_not_slot (h : DecodesTo s i) (hop : ¬(i.op = .update ∨ i.op = .final))
    (es : List ErrCode) :
    firstFailing (checkFails s) (.ctxState :: .ctxAlg :: es) = firstFailing (checkFails s) es := by
  rw [firstFailing_cons_of_passes fun hf => hop ((checkFails_ctxState h).1 hf).1,
    firstFailing_cons_of_passes fun hf => hop ((checkFails_ctxAlg h).1 hf).1]

/-- The check of the operand ranges (R82). -/
theorem firstFailing_range {ok : Bool} (h : DecodesTo s i)
    (hok : ok = true ↔ ¬rangeFails (opCode i.op) (algField i.alg) i.operands s) (es : List ErrCode) :
    firstFailing (checkFails s) (.range :: es) = (rangeFault ok).or (firstFailing (checkFails s) es) := by
  rw [← checkFails_range h] at hok
  cases ok with
  | false => exact firstFailing_cons_of_fails (by simpa using hok)
  | true => exact firstFailing_cons_of_passes (hok.1 rfl)

/-- The length check of UPDATE, the last of all (R148). -/
theorem firstFailing_length (h : DecodesTo s i) (hop : i.op = .update) :
    firstFailing (checkFails s) [.length] =
      lengthFault ((s.slot i.operands.ctx).msg.length + i.operands.len.toNat) := by
  by_cases hl : checkFails s .length
  · rw [firstFailing_cons_of_fails hl, lengthFault, if_pos ((checkFails_length h).1 hl).2]
  · have hle := mt (fun hlt => (checkFails_length h).2 ⟨hop, hlt⟩) hl
    rw [firstFailing_cons_of_passes hl, firstFailing_nil, lengthFault, if_neg hle]

theorem firstFailing_not_length (h : DecodesTo s i) (hop : i.op ≠ .update) :
    firstFailing (checkFails s) [.length] = none :=
  firstFailing_cons_of_passes fun hf => hop ((checkFails_length h).1 hf).1

/-- The later checks of a command that neither jumps nor reads a slot: the range check alone. -/
theorem firstFailing_range_only {ok : Bool} (h : DecodesTo s i)
    (hop : i.op ∉ [.jump, .jmatch, .jnmatch, .update, .final])
    (hok : ok = true ↔ ¬rangeFails (opCode i.op) (algField i.alg) i.operands s) :
    firstFailing (checkFails s) laterChecks = rangeFault ok := by
  simp only [List.mem_cons, List.not_mem_nil, or_false, not_or] at hop
  obtain ⟨hjump, hjmatch, hjnmatch, hupdate, hfinal⟩ := hop
  rw [firstFailing_not_jump h (by simp [hjump, hjmatch, hjnmatch]),
    firstFailing_not_slot h (by simp [hupdate, hfinal]), firstFailing_range h hok,
    firstFailing_not_length h hupdate, Option.or_none]

/-- The alignment check of a jump, before all that reads the state (R410 to R412). -/
theorem firstFailing_align (h : DecodesTo s i) (hop : i.op ∈ jumpOps) (es : List ErrCode) :
    firstFailing (checkFails s) (.targetAlign :: es) =
      (alignFault i.operands.src).or (firstFailing (checkFails s) es) := by
  have halign : checkFails s .targetAlign ↔ i.operands.src.toNat % 32 ≠ 0 := by
    simp [checkFails_targetAlign h, hop]
  by_cases ha : checkFails s .targetAlign
  · rw [firstFailing_cons_of_fails ha, alignFault, if_neg (halign.1 ha), Option.some_or]
  · rw [firstFailing_cons_of_passes ha, alignFault, if_pos (Decidable.not_not.1 (mt halign.2 ha)),
      Option.none_or]

/-- A jump reads no slot and no operand range. -/
theorem firstFailing_align_only (h : DecodesTo s i) (hop : i.op ∈ jumpOps) :
    firstFailing (checkFails s) laterChecks = alignFault i.operands.src := by
  have hslot : ¬(i.op = .update ∨ i.op = .final) := by revert hop; cases i.op <;> decide
  have hok : true = true ↔ ¬rangeFails (opCode i.op) (algField i.alg) i.operands s := by
    revert hop; cases i.op <;> simp [rangeFails, opCode]
  rw [firstFailing_align h hop, firstFailing_not_slot h hslot, firstFailing_range h hok,
    firstFailing_not_length h (mt .inl hslot)]
  exact Option.or_none

/-- A command of an operation that is not a hash operation has no algorithm (R105). -/
theorem alg_eq_none (h : i.op.isHashOp = false) : i.alg = none := by
  have hnone : i.alg.isSome = false := (isSome_alg i).trans h
  simpa using hnone

/-- The operand ranges of HASH and VERIFY, as the model and as the statements check them. -/
theorem hashRanges_iff_not_rangeFails {a : Alg} (hop : i.op = .hash ∨ i.op = .verify)
    (halg : i.alg = some a) :
    hashRanges a i.operands s = true ↔ ¬rangeFails (opCode i.op) (algField i.alg) i.operands s := by
  rcases hop with hop | hop <;> simp [hashRanges_iff_hashInRange, rangeFails, hop, halg, opCode, algField]

/-- The operand ranges of a rotation or a byte swap. -/
theorem primRanges_iff_not_rangeFails (hop : i.op = .rotl ∨ i.op = .rotr ∨ i.op = .bswap) :
    primRanges i.operands s (opBytes i.operands) = true ↔
      ¬rangeFails (opCode i.op) (algField i.alg) i.operands s := by
  rw [primRanges_iff_inRange]
  rcases hop with hop | hop | hop <;> simp [rangeFails, hop, opCode]

/-- A command takes the fault of the first of its checks that fails, and none when none does. -/
theorem errorOf_effectOf (h : DecodesTo s i) :
    errorOf (effectOf i s) = firstFailing (checkFails s) commandChecks := by
  rw [firstFailing_commandChecks h]
  cases effectCase i s with
  | hash a hop halg heff =>
    have hok := hashRanges_iff_not_rangeFails (s := s) (.inl hop) halg
    rw [heff, errorOf_hashEffect, firstFailing_range_only h (by simp [hop]) hok, hop, halg]
  | verify a hop halg heff =>
    have hok := hashRanges_iff_not_rangeFails (s := s) (.inr hop) halg
    rw [heff, errorOf_verifyEffect, firstFailing_range_only h (by simp [hop]) hok, hop, halg]
  | init a hop halg hstr heff =>
    have hok : s.inRange i.operands.aux.toNat (auxLen a i.operands) = true ↔
        ¬rangeFails (opCode i.op) (algField i.alg) i.operands s := by
      simp [inRange_iff, auxLen_eq_auxBytes, rangeFails, hop, halg, opCode, algField]
    rw [heff, errorOf_initEffect, firstFailing_range_only h (by simp [hop]) hok, hop, halg]
  | update a hop halg heff =>
    have hok : s.inRange i.operands.src.toNat i.operands.len.toNat = true ↔
        ¬rangeFails (opCode i.op) (algField i.alg) i.operands s := by
      simp [inRange_iff, rangeFails, hop, opCode]
    rw [heff, errorOf_updateEffect, firstFailing_not_jump h (by simp [hop]),
      firstFailing_slot h (.inl hop) halg, firstFailing_range h hok, firstFailing_length h hop, hop, halg]
  | final a hop halg heff =>
    have hok : s.inRange i.operands.dst.toNat
        (outLen (s.slot i.operands.ctx).alg (s.slot i.operands.ctx).prm) = true ↔
          ¬rangeFails (opCode i.op) (algField i.alg) i.operands s := by
      simp [inRange_iff, finalInRange, rangeFails, hop, opCode]
    rw [heff, errorOf_finalEffect, firstFailing_not_jump h (by simp [hop]),
      firstFailing_slot h (.inr hop) halg, firstFailing_range h hok,
      firstFailing_not_length h (by simp [hop]), Option.or_none, hop, halg]
  | rotate rot hop heff =>
    have hok := primRanges_iff_not_rangeFails (s := s) (hop.imp_right .inl)
    have hnone : i.alg = none := alg_eq_none (by rcases hop with hop | hop <;> rw [hop] <;> rfl)
    have hother : i.op ∉ [.jump, .jmatch, .jnmatch, .update, .final] := by
      rcases hop with hop | hop <;> simp [hop]
    rw [heff, errorOf_rotateEffect, firstFailing_range_only h hother hok, hnone]
  | bswap hop heff =>
    have hok := primRanges_iff_not_rangeFails (s := s) (.inr (.inr hop))
    rw [heff, errorOf_bswapEffect, firstFailing_range_only h (by simp [hop]) hok,
      alg_eq_none (by rw [hop]; rfl), hop]
  | mul128 hop heff =>
    have hok : (s.inRange i.operands.src.toNat 16 && s.inRange i.operands.aux.toNat 16 &&
        s.inRange i.operands.dst.toNat 32) = true ↔
          ¬rangeFails (opCode i.op) (algField i.alg) i.operands s := by
      simp [inRange_iff, rangeFails, hop, opCode, and_assoc]
    rw [heff, errorOf_mul128Effect, firstFailing_range_only h (by simp [hop]) hok,
      alg_eq_none (by rw [hop]; rfl), hop]
  | jump taken hop htaken heff =>
    have hnone : i.alg = none := alg_eq_none (by revert hop; cases i.op <;> decide)
    rw [heff, errorOf_jumpEffect, firstFailing_align_only h hop, hnone]
  | nop hop heff =>
    have hok : true = true ↔ ¬rangeFails (opCode i.op) (algField i.alg) i.operands s := by
      simp [rangeFails, hop, opCode]
    rw [heff, errorOf_plainEffect, firstFailing_range_only h (by simp [hop]) hok,
      alg_eq_none (by rw [hop]; rfl), hop]
    exact Option.or_none.symm
  | stop hop heff =>
    have hok : true = true ↔ ¬rangeFails (opCode i.op) (algField i.alg) i.operands s := by
      simp [rangeFails, hop, opCode]
    rw [heff, errorOf_plainEffect, firstFailing_range_only h (by simp [hop]) hok,
      alg_eq_none (by rw [hop]; rfl), hop]
    exact Option.or_none.symm

end Order

/-! ### The checks of a step in their order -/

/-- All checks, in the order of R434. -/
def allChecks : List ErrCode := priority.map Prod.fst

theorem allChecks_eq :
    allChecks = .abort :: .fetchAlign :: .fetchRange :: .illegalOp :: .illegalAlg :: commandChecks := rfl

/-- The code that R434's list gives a check is the model's number of its fault (R431). -/
theorem code_eq_errNumber {p : ErrCode × BitVec 8} (h : p ∈ priority) : p.2 = errNumber p.1 := by
  revert p
  decide

section Step

variable {s : State}

/-- The checks of the fetch (R35). -/
theorem firstFailing_of_fetch_error {c : ErrCode} (h : s.fetch = .error c) (es : List ErrCode) :
    firstFailing (checkFails s) (.fetchAlign :: .fetchRange :: es) = some c := by
  rcases fetch_error.1 h with ⟨halign, rfl⟩ | ⟨halign, hrange, rfl⟩
  · exact firstFailing_cons_of_fails halign
  · rw [firstFailing_cons_of_passes (not_not_intro halign)]
    exact firstFailing_cons_of_fails hrange

theorem firstFailing_of_fetch_ok {d : Bytes} (h : s.fetch = .ok d) (es : List ErrCode) :
    firstFailing (checkFails s) (.fetchAlign :: .fetchRange :: es) = firstFailing (checkFails s) es := by
  obtain ⟨halign, hrange, -⟩ := fetch_ok.1 h
  rw [firstFailing_cons_of_passes (not_not_intro halign), firstFailing_cons_of_passes (Nat.not_lt.2 hrange)]

/-- The faults of the decoder are the first of R434 from E_ILLEGAL_OP on (R108, R109). -/
theorem firstFailing_of_decode_error {c : ErrCode} (h : decode (s.memRead s.cmdPtr.toNat 32) = .error c) :
    firstFailing (checkFails s) (.illegalOp :: .illegalAlg :: commandChecks) = some c := by
  have hcase := decodeCase (s.memRead s.cmdPtr.toNat 32)
  rw [h] at hcase
  cases hcase with
  | illegalOp hop => exact firstFailing_cons_of_fails hop
  | illegalAlg hop halg =>
    rw [firstFailing_cons_of_passes (not_not_intro (isHashOp_mem_opCodes hop))]
    exact firstFailing_cons_of_fails ⟨hop, halg⟩
  | reserved hop hplain halg =>
    rw [firstFailing_cons_of_passes (not_not_intro hop), firstFailing_cons_of_passes fun hf => hplain hf.1]
    exact firstFailing_cons_of_fails (reservedFails_of_alg hplain halg _)

/-- A descriptor that decodes has a listed OP and an ALG of its set. -/
theorem firstFailing_of_decode_ok {i : Instr} (h : DecodesTo s i) (es : List ErrCode) :
    firstFailing (checkFails s) (.illegalOp :: .illegalAlg :: es) = firstFailing (checkFails s) es := by
  obtain ⟨hop, halg, -⟩ := decode_ok_iff.1 h
  have hlegal := algField_legal i
  rw [← hop, ← halg] at hlegal
  have hlisted : opField (s.memRead s.cmdPtr.toNat 32) ∈ opCodes := hop ▸ opCode_mem_opCodes i.op
  rw [firstFailing_cons_of_passes (not_not_intro hlisted)]
  refine firstFailing_cons_of_passes fun hf => ?_
  rcases hlegal with ⟨-, hmem⟩ | ⟨hplain, -⟩
  · exact hf.2 hmem
  · exact hplain hf.1

/-- What a step of a running core does when `r` is its first failing check: the fault of that check, or the
command at CMDPTR when there is none (R434). -/
def StepAnswers (s : State) : Option ErrCode → Prop
  | some c => step s = .next (s.raiseFault c)
  | none => ∃ i e, s.command = .ok i ∧ effectOf i s = .ok e ∧ step s = .next (s.commit e)

/-- A step takes the fault of the first check that fails, and completes when none does (R434). -/
theorem stepAnswers_firstFailing (hb : s.busy = true) (hclean : s.clean = true) :
    StepAnswers s (firstFailing (checkFails s) allChecks) := by
  have hsettle := settle_of_clean hclean
  rw [allChecks_eq]
  cases habort : s.abortPend with
  | true =>
    rw [firstFailing_cons_of_fails habort]
    exact step_abort hb habort
  | false =>
  rw [firstFailing_cons_of_passes (e := .abort) (Bool.eq_false_iff.1 habort)]
  cases hfetch : s.fetch with
  | error c =>
    rw [firstFailing_of_fetch_error hfetch]
    exact step_fetch_error hb habort hclean hfetch
  | ok d =>
  rw [firstFailing_of_fetch_ok hfetch]
  obtain ⟨-, -, rfl⟩ := fetch_ok.1 hfetch
  cases hdecode : decode (s.memRead s.cmdPtr.toNat 32) with
  | error c =>
    have hcmd : s.command = .error c := command_error.2 (.inr ⟨_, hfetch, hdecode⟩)
    rw [firstFailing_of_decode_error hdecode]
    exact (step_error hb habort (hsettle.symm ▸ hcmd)).trans (by rw [hsettle])
  | ok i =>
  have hcmd : s.command = .ok i := command_ok.2 ⟨_, hfetch, hdecode⟩
  have hstep : step s = exec i s := by rw [step_exec hb habort (hsettle.symm ▸ hcmd), hsettle]
  rw [firstFailing_of_decode_ok hdecode, ← errorOf_effectOf hdecode]
  cases heff : effectOf i s with
  | ok e => exact ⟨i, e, hcmd, heff, hstep.trans (exec_of_ok heff)⟩
  | error c => exact hstep.trans (exec_of_error heff)

end Step

end Sys2Proof.Machine
end

section
/-! The statements about faults and interrupts (60_exceptions.md). -/

namespace Sys2Proof.Proofs

open Machine Claims

/-- Settles O53: the check at hand is the first that fails, and the step takes that one's fault. -/
theorem faultPriority : Obligations.FaultPriority := by
  intro s before after e code hb hclean hsplit hbefore hfails
  have hcode : code = errNumber e := code_eq_errNumber (p := (e, code)) (by simp [hsplit])
  have hsplit : allChecks = before.map Prod.fst ++ e :: after.map Prod.fst := by simp [allChecks, hsplit]
  have hpass : ∀ c ∈ before.map Prod.fst, ¬checkFails s c := by simpa using hbefore
  have hstep := stepAnswers_firstFailing hb hclean
  rw [hsplit, firstFailing_append_cons hpass hfails] at hstep
  rw [hcode]
  exact hstep

/-- Settles O54: with no failing check the step commits the command's effect, which leaves ERR, ERRCODE and
ERRPTR and ends the run only with DONE. -/
theorem noFaultWithoutFailedCheck : Obligations.NoFaultWithoutFailedCheck := by
  intro s hb hclean hpass
  have hstep := stepAnswers_firstFailing hb hclean
  rw [firstFailing_eq_none.2 (by simpa [allChecks] using hpass)] at hstep
  obtain ⟨i, e, hcmd, heff, hstep⟩ := hstep
  refine ⟨i, s.commit e, hcmd, hstep, exec_of_ok heff, rfl, rfl, rfl, ?_⟩
  cases hstop : e.stop
  · exact .inl (by simp [hstop, hb])
  · exact .inr (by simp [hstop])

/-- Settles O55: the fault is one of the twelve of R431, taken in the state as it is. -/
theorem faultsArePrecise : Obligations.FaultsArePrecise := by
  intro s t _ hclean herr hstep ht
  obtain ⟨c, rfl⟩ := (stepCase_of_step hstep).eq_raiseFault hclean herr ht
  obtain ⟨hlow, hhigh⟩ := errNumber_bounds c
  exact ⟨errNumber c, hlow, hhigh, raiseFault_eq_faultState s c⟩

/-- Settles O57: the fault wrote no more than START and the next fault write again. -/
theorem resumeAfterFault : Obligations.ResumeAfterFault := by
  intro s t v hinv hclean hb hstep ht hv
  obtain ⟨-, herr⟩ := status_of_busy hinv hb
  obtain ⟨c, rfl⟩ := (stepCase_of_step hstep).eq_raiseFault hclean herr ht
  refine ⟨rfl, rfl, rfl, rfl, rfl, ?_⟩
  rw [hostWriteReg_ctrl, writeCtrl_raiseFault hinv hb hv]

/-- Settles O10: each write clears IRQ_EN, or both DONE and ERR; the end of a run sets one of the two. -/
theorem irqOutput : Obligations.IrqOutput := by
  refine ⟨irq_iff, fun s t v hdone herr h => ?_, fun s t v hv h => ?_, fun s t v hb hv h => ?_,
    fun s t hb _ _ h hend => ?_⟩
  · cases h
    simp only [State.irq, writeStatus_done, writeStatus_err]
    cases hd : s.done <;> cases he : s.err <;> simp_all
  · cases h
    simp only [State.irq, writeCtrl_irqEn, hv, Bool.false_and]
  · cases h
    simp [State.irq, hb, hv]
  · obtain ⟨hkept, hset⟩ := (stepCase_of_step h).irq_of_end hb hend
    rw [← hkept, Bool.eq_iff_iff, irq_iff]
    exact and_iff_left hset

/-- Settles O15: the abort comes before the fetch, and every other step of a run leaves no abort pending. -/
theorem abortTaken : Obligations.AbortTaken := by
  refine ⟨fun s hb ha => step_abort hb ha, fun s t hb h _ => ?_⟩
  rcases (stepCase_of_step h).abortPend_eq with ⟨hidle, -⟩ | hclear
  · exact absurd (hb.symm.trans hidle) nofun
  · exact hclear

end Sys2Proof.Proofs
end

section
/-! The statements about reset, the idle core and the host's accesses during a run
(70_reset_and_hazards.md). -/

namespace Sys2Proof.Proofs

open Machine Claims

/-- Settles O3, event by event. -/
theorem idleCore : Obligations.IdleCore :=
  ⟨fun _ hidle => step_idle hidle,
    fun _ _ _ hidle h hwake => (eventCase_of_sysStep h).start_of_wake hidle hwake⟩

/-- Settles O12: the write spoils its bytes and touches no other, and the store of an idle host takes its bytes
off the spoiled ones. -/
theorem spoiledBytes : Obligations.SpoiledBytes := by
  refine ⟨fun s a bs hb hr => ⟨_, hostWriteMem_busy hb hr, rfl, fun x => ?_, fun x hx => read_settle hx⟩,
    fun s a bs hwf hb hr => ⟨_, hostWriteMem_idle hb hr, memRead_settle_hostStore hwf a bs⟩,
    fun s a n hb hr => ⟨_, _, hostReadMem_busy hb hr, by simp, rfl⟩⟩
  rw [mem_spoiled_spoil, or_comm]

/-- Settles O58: a byte that changes is one of those in progress. -/
theorem resetDuringRun : Obligations.ResetDuringRun := by
  refine fun s _ => ⟨resetRegisters_platformReset s, fun x hx => storing_of_mem_inProgress ?_⟩
  by_contra hout
  exact hx (Memory.read_drawAll_out _ _ _ hout)

/-- Settles O1: an idle core has no command in progress, so a reset draws no byte. -/
theorem resetState : Obligations.ResetState := by
  refine ⟨fun size init => ⟨resetRegisters_poweredOn size init, rfl, rfl⟩, ⟨[], rfl⟩,
    fun s => ⟨resetRegisters_platformReset s, rfl, fun hidle => ?_⟩⟩
  rw [platformReset_dmem, inProgress_idle hidle]
  rfl

end Sys2Proof.Proofs
end

section
/-! The hash operations (40_common.md R140 to R144): the checks of an operation on raw fields are the model's, and
each operation's effect once its checks pass. -/

namespace Sys2Proof.Machine

open Claims

/-! ### Decoded parameters and digests -/

/-- A word is 0 exactly when its number is, so both tables choose the default output length alike (R113, R145). -/
theorem defaultOutlen_toNat {w : Nat} (x : BitVec w) :
    defaultOutlen x.toNat = if x = 0 then 32 else x.toNat := by
  simp [defaultOutlen, ← BitVec.toNat_inj]

/-- Legal parameters ask BLAKE2b for at most 64 bytes, so the digest has the length of the table (R110, R146). -/
theorem length_digest_of_passes {a : Alg} {o : Operands} (h : ¬paramFails 0x01#8 (algCode a) o) (x m : Bytes) :
    (digest a (decodeParams a o) x m).length = outBytes (algCode a) o := by
  have hlegal : algParamBad a o = false := Bool.eq_false_iff.2 (mt (algParamBad_iff a o).1 h)
  rw [length_digest (decodeParams_outlen_le hlegal), outLen_decodeParams]

theorem matchFlag_eq_decide (x y : Bytes) : matchFlag x y = decide (x = y) :=
  beq_eq_decide x y

/-! ### The decoder and the field checks -/

/-- The decoder refuses an ALG outside the set of a hash operation (R106). -/
theorem rejectsOtherAlgs {op : Op} (h : op.isHashOp = true) : RejectsOtherAlgs (opCode op) := by
  intro d hop halg
  obtain ⟨-, hillegal, -⟩ := Proofs.decodeRejects d
  exact hillegal.2 ⟨hop ▸ (isHashOp_opCode op).2 h, hop ▸ halg⟩

section Fields

variable {i : Instr} {s : State} {op : Op} {a : Option Alg} {o : Operands} {reserved param done : Prop}
  {rest : List (BitVec 8 × Prop)}

theorem fieldFault_of_passes (ha : a.isSome = op.isHashOp) (hr : ¬reservedFails (opCode op) (algField a) o)
    (hp : ¬paramFails (opCode op) (algField a) o) : fieldFault op a o = none :=
  fieldFault_eq_none.2
    ⟨Bool.eq_false_iff.2 (mt (reservedBad_iff ha o).1 hr), Bool.eq_false_iff.2 (mt (paramBad_iff ha o).1 hp)⟩

/-- The two field checks of a command, in the order of R115. -/
theorem checked_fields (hr : reservedBad op a o = true ↔ reserved) (hp : paramBad op a o = true ↔ param)
    (hfault : ∀ c, fieldFault op a o = some c → effectOf i s = .error c)
    (hrest : fieldFault op a o = none → Checked i s rest done) :
    Checked i s ((0x05#8, reserved) :: (0x06#8, param) :: rest) done := by
  refine checked_cons (fun h => faults_of_error (hfault _ (fieldFault_reserved (hr.2 h)))) fun hnr => ?_
  have hreserved := Bool.eq_false_iff.2 (mt hr.1 hnr)
  refine checked_cons (fun h => faults_of_error (hfault _ (fieldFault_param hreserved (hp.2 h)))) fun hnp => ?_
  exact hrest (fieldFault_eq_none.2 ⟨hreserved, Bool.eq_false_iff.2 (mt hp.1 hnp)⟩)

/-- The field check of a command whose operation has no illegal parameter. -/
theorem checked_reserved (hr : reservedBad op a o = true ↔ reserved) (hp : paramBad op a o = false)
    (hfault : ∀ c, fieldFault op a o = some c → effectOf i s = .error c)
    (hrest : fieldFault op a o = none → Checked i s rest done) :
    Checked i s ((0x05#8, reserved) :: rest) done := by
  refine checked_cons (fun h => faults_of_error (hfault _ (fieldFault_reserved (hr.2 h)))) fun hnr => ?_
  exact hrest (fieldFault_eq_none.2 ⟨Bool.eq_false_iff.2 (mt hr.1 hnr), hp⟩)

/-- The range check of a command (R82). -/
theorem checked_range {ok : Bool} {inside : Prop} (hok : ok = true ↔ inside)
    (hfault : ok = false → effectOf i s = .error .range) (hrest : inside → Checked i s rest done) :
    Checked i s ((0x0A#8, ¬inside) :: rest) done :=
  checked_cons (fun h => faults_of_error (hfault (Bool.eq_false_iff.2 (mt hok.1 h))))
    fun h => hrest (not_not.1 h)

/-- The two slot checks of UPDATE and FINAL, in their order (R143, R144). -/
theorem checked_slot {a : Alg} {c : Slot} (hfault : ∀ e, slotFault a c = some e → effectOf i s = .error e)
    (hrest : slotFault a c = none → Checked i s rest done) :
    Checked i s ((0x08#8, c.state ≠ .active) :: (0x09#8, c.alg ≠ a) :: rest) done := by
  refine checked_cons (fun h => faults_of_error (hfault _ (slotFault_eq_some.2 (.inl ⟨h, rfl⟩)))) fun hs => ?_
  have hactive : c.state = .active := not_not.1 hs
  refine checked_cons
    (fun h => faults_of_error (hfault _ (slotFault_eq_some.2 (.inr ⟨hactive, h, rfl⟩)))) fun ha => ?_
  exact hrest (slotFault_eq_none.2 ⟨hactive, not_not.1 ha⟩)

end Fields

/-! ### The commands of a list -/

section Commands

variable {c : Alg × (Operands → Instr)} (o : Operands) (s : State)

theorem effectOf_hashCommand (hc : c ∈ hashCommands) : effectOf (c.2 o) s = hashEffect c.1 o s := by
  unfold hashCommands at hc
  repeat
    rcases List.mem_cons.1 hc with rfl | hc
    · rfl
  cases hc

theorem effectOf_verifyCommand (hc : c ∈ verifyCommands) : effectOf (c.2 o) s = verifyEffect c.1 o s := by
  unfold verifyCommands at hc
  repeat
    rcases List.mem_cons.1 hc with rfl | hc
    · rfl
  cases hc

theorem effectOf_initCommand (hc : c ∈ initCommands) : effectOf (c.2 o) s = initEffect c.1 o s := by
  unfold initCommands at hc
  repeat
    rcases List.mem_cons.1 hc with rfl | hc
    · rfl
  cases hc

theorem effectOf_updateCommand (hc : c ∈ updateCommands) : effectOf (c.2 o) s = updateEffect c.1 o s := by
  unfold updateCommands at hc
  repeat
    rcases List.mem_cons.1 hc with rfl | hc
    · rfl
  cases hc

theorem effectOf_finalCommand (hc : c ∈ finalCommands) : effectOf (c.2 o) s = finalEffect c.1 o s := by
  unfold finalCommands at hc
  repeat
    rcases List.mem_cons.1 hc with rfl | hc
    · rfl
  cases hc

end Commands

/-! ### The effects when the checks pass, in the terms of the statements -/

section Passing

variable {a : Alg} {o : Operands} {s : State}

/-- The digest that a HASH or VERIFY with these fields computes (R140, R141). -/
abbrev messageDigest (a : Alg) (o : Operands) (s : State) : Bytes :=
  digest a (decodeParams a o) (s.memRead o.aux.toNat (auxBytes (algCode a) o))
    (s.memRead o.src.toNat o.len.toNat)

theorem hashResult_eq (a : Alg) (o : Operands) (s : State) : hashResult a o s = messageDigest a o s := by
  rw [hashResult, auxLen_eq_auxBytes]

theorem hashEffect_of_passes (hfield : fieldFault .hash (some a) o = none)
    (hrange : hashInRange (algCode a) o s) :
    hashEffect a o s = .ok { store := some (o.dst.toNat, messageDigest a o s) } :=
  hashEffect_ok.2 ⟨hfield, (hashRanges_iff_hashInRange a o s).2 hrange, by rw [hashResult_eq]⟩

theorem verifyEffect_of_passes (hfield : fieldFault .verify (some a) o = none)
    (hrange : hashInRange (algCode a) o s) :
    verifyEffect a o s = .ok { flag := some (decide
      (messageDigest a o s = s.memRead o.dst.toNat (outBytes (algCode a) o))) } :=
  verifyEffect_ok.2 ⟨hfield, (hashRanges_iff_hashInRange a o s).2 hrange,
    by rw [matchFlag_eq_decide, hashResult_eq, outLen_decodeParams]⟩

/-- The slot that INIT leaves (R142). -/
abbrev freshSlot (a : Alg) (o : Operands) (s : State) : Slot :=
  ⟨.active, a, decodeParams a o, s.memRead o.aux.toNat (auxBytes (algCode a) o), []⟩

theorem initEffect_of_passes (hfield : fieldFault .init (some a) o = none)
    (hrange : InRange s o.aux.toNat (auxBytes (algCode a) o)) :
    initEffect a o s = .ok { slot := some (o.ctx, freshSlot a o s) } :=
  initEffect_ok.2 ⟨hfield, by rw [auxLen_eq_auxBytes]; exact inRange_iff.2 hrange,
    by rw [initSlot, auxLen_eq_auxBytes]⟩

/-- The slot that UPDATE leaves: the bytes are appended (R143). -/
abbrev Slot.absorb (c : Slot) (bs : Bytes) : Slot := { c with msg := c.msg ++ bs }

theorem updateEffect_of_passes (hfield : fieldFault .update (some a) o = none)
    (hslot : slotFault a (s.slot o.ctx) = none) (hrange : InRange s o.src.toNat o.len.toNat)
    (hlen : (s.slot o.ctx).msg.length + o.len.toNat ≤ Config.maxTotal) :
    updateEffect a o s =
      .ok { slot := some (o.ctx, (s.slot o.ctx).absorb (s.memRead o.src.toNat o.len.toNat)) } :=
  updateEffect_ok.2 ⟨hfield, hslot, inRange_iff.2 hrange, hlen, rfl⟩

theorem finalEffect_of_passes (hfield : fieldFault .final (some a) o = none)
    (hslot : slotFault a (s.slot o.ctx) = none) (hrange : finalInRange o s) :
    finalEffect a o s =
      .ok { store := some (o.dst.toNat, digest a (s.slot o.ctx).prm (s.slot o.ctx).aux (s.slot o.ctx).msg)
            slot := some (o.ctx, { s.slot o.ctx with state := .finalized }) } := by
  obtain ⟨-, halg⟩ := slotFault_eq_none.1 hslot
  exact finalEffect_ok.2 ⟨hfield, hslot, inRange_iff.2 hrange, by rw [halg]⟩

end Passing

/-! ### What a store leaves -/

section Store

variable {i : Instr} {s : State} {e : Effect} {a : Nat} {bs : Bytes}

theorem memRead_commit_store (hwf : Memory.wf s.dmem = true) (hstore : e.store = some (a, bs)) :
    (s.commit e).memRead a bs.length = bs := by
  rw [State.memRead, commit_dmem, hstore]
  exact Memory.readBytes_writeBytes _ _ _ hwf

/-- The bytes of a store are at its address, and every other byte is as before (R83). -/
theorem wrote_commit (hwf : Memory.wf s.dmem = true) (hstore : e.store = some (a, bs)) :
    Wrote s (s.commit e) a bs := by
  refine ⟨memRead_commit_store hwf hstore, fun x hx => ?_⟩
  rw [commit_dmem, hstore]
  exact Memory.read_writeBytes_out _ _ _ hx

theorem stores_of_effect (hwf : Memory.wf s.dmem = true)
    (h : effectOf i s = .ok { store := some (a, bs) }) : Stores i s a bs :=
  ⟨_, exec_of_ok h, wrote_commit hwf rfl, rfl⟩

end Store

end Sys2Proof.Machine
end

section
/-! The statements about the hash operations one by one (40_common.md R140 to R148). -/

namespace Sys2Proof.Proofs

open Machine Claims

/-- Settles O21: the only choices in the table are the default output length and SipHash's variant. -/
theorem decodedParameters : Obligations.DecodedParameters := by
  intro o
  have hseeded : ∀ a ∈ [Alg.murmur3_32, .murmur3_128, .xxh32, .xxh64, .city64, .city128, .farm64],
      decodeParams a o = { mode := o.param.toNat } := by simp [decodeParams]
  refine ⟨by simp [decodeParams], ?blake2b, ?blake3, ?_, ?_, ?_, hseeded⟩
  case blake2b => rw [decodeParams, defaultOutlen_toNat]
  case blake3 => rw [decodeParams, defaultOutlen_toNat]
  all_goals intro hparam; rw [decodeParams, hparam]; rfl

/-- Settles O22. -/
theorem digestLength : Obligations.DigestLength :=
  fun _ _ aux m h => length_digest_of_passes h aux m

/-- Settles O23: the seed mode picks the seed word, or the seeded form of the function. -/
theorem digestTable : Obligations.DigestTable := by
  intro p a m
  refine ⟨rfl, rfl, rfl, rfl, rfl, rfl, rfl, fun h => ?_, fun h => ?_, fun h => ?_⟩ <;>
    simp [digest, seed32, seed64, city64Mode, city128Mode, farm64Mode, pairBytes, h]

/-- Settles O24: after the checks the effect is one store of the digest. -/
theorem hashRule : Obligations.HashRule := by
  refine ⟨rejectsOtherAlgs (op := .hash) rfl, fun c hc o s hwf => ?_⟩
  have heff := effectOf_hashCommand o s hc
  refine checked_fields (op := .hash) (a := some c.1) (reservedBad_iff rfl o) (paramBad_iff rfl o)
    (fun e he => heff.trans (hashEffect_error.2 (.inl he))) fun hfield => ?_
  refine checked_range (hashRanges_iff_hashInRange c.1 o s)
    (fun hr => heff.trans (hashEffect_error.2 (.inr ⟨hfield, hr, rfl⟩))) fun hrange => checked_nil ?_
  exact stores_of_effect hwf (heff.trans (hashEffect_of_passes hfield hrange))

/-- Settles O25: after the checks the effect is one write of MATCH. -/
theorem verifyRule : Obligations.VerifyRule := by
  refine ⟨rejectsOtherAlgs (op := .verify) rfl, fun c hc o s => ?_⟩
  have heff := effectOf_verifyCommand o s hc
  refine checked_fields (op := .verify) (a := some c.1) (reservedBad_iff rfl o) (paramBad_iff rfl o)
    (fun e he => heff.trans (verifyEffect_error.2 (.inl he))) fun hfield => ?_
  refine checked_range (hashRanges_iff_hashInRange c.1 o s)
    (fun hr => heff.trans (verifyEffect_error.2 (.inr ⟨hfield, hr, rfl⟩))) fun hrange => checked_nil ?_
  exact exec_of_ok (heff.trans (verifyEffect_of_passes hfield hrange))

/-- Settles O26: no check reads the slot, and the effect overwrites it. -/
theorem initRule : Obligations.InitRule := by
  refine ⟨rejectsOtherAlgs (op := .init) rfl, fun c hc o s => ?_⟩
  have heff := effectOf_initCommand o s hc
  refine checked_fields (op := .init) (a := some c.1) (reservedBad_iff rfl o) (paramBad_iff rfl o)
    (fun e he => heff.trans (initEffect_error.2 (.inl he))) fun hfield => ?_
  refine checked_range (ok := s.inRange o.aux.toNat (auxLen c.1 o))
    (by rw [inRange_iff, auxLen_eq_auxBytes])
    (fun hr => heff.trans (initEffect_error.2 (.inr ⟨hfield, hr, rfl⟩))) fun hrange => checked_nil ?_
  exact exec_of_ok (heff.trans (initEffect_of_passes hfield hrange))

/-- Settles O27: the length check comes last, and the effect appends to the slot's message. -/
theorem updateRule : Obligations.UpdateRule := by
  refine ⟨rejectsOtherAlgs (op := .update) rfl, fun c hc o s => ?_⟩
  have heff := effectOf_updateCommand o s hc
  refine checked_reserved (op := .update) (a := some c.1) (reservedBad_iff rfl o) rfl
    (fun e he => heff.trans (updateEffect_error.2 (.inl he))) fun hfield => ?_
  refine checked_slot (fun e he => heff.trans (updateEffect_error.2 (.inr ⟨hfield, .inl he⟩)))
    fun hslot => ?_
  refine checked_range inRange_iff
    (fun hr => heff.trans (updateEffect_error.2 (.inr ⟨hfield, .inr ⟨hslot, .inl ⟨hr, rfl⟩⟩⟩)))
    fun hrange => ?_
  refine checked_cons (fun hlong => faults_of_error (c := .length) ?_) fun hfits => checked_nil ?_
  · exact heff.trans (updateEffect_error.2
      (.inr ⟨hfield, .inr ⟨hslot, .inr ⟨inRange_iff.2 hrange, hlong, rfl⟩⟩⟩))
  · exact exec_of_ok (heff.trans (updateEffect_of_passes hfield hslot hrange (Nat.not_lt.1 hfits)))

/-- Settles O28: the effect stores the digest of the slot and marks the slot FINALIZED. -/
theorem finalRule : Obligations.FinalRule := by
  refine ⟨rejectsOtherAlgs (op := .final) rfl, fun c hc o s hwf => ?_⟩
  have heff := effectOf_finalCommand o s hc
  refine checked_reserved (op := .final) (a := some c.1) (reservedBad_iff rfl o) rfl
    (fun e he => heff.trans (finalEffect_error.2 (.inl he))) fun hfield => ?_
  refine checked_slot (fun e he => heff.trans (finalEffect_error.2 (.inr ⟨hfield, .inl he⟩)))
    fun hslot => ?_
  refine checked_range inRange_iff
    (fun hr => heff.trans (finalEffect_error.2 (.inr ⟨hfield, .inr ⟨hslot, hr, rfl⟩⟩)))
    fun hrange => checked_nil ?_
  exact ⟨_, exec_of_ok (heff.trans (finalEffect_of_passes hfield hslot hrange)), wrote_commit hwf rfl, rfl⟩

end Sys2Proof.Proofs
end

section
/-! Streaming (40_common.md R149, R150): what INIT, the UPDATEs and FINAL leave of the state they started from, and
which fields a digest depends on. -/

namespace Sys2Proof.Machine

open Claims

/-! ### The fields a digest depends on -/

theorem decodeParams_congr {a : Alg} {o o' : Operands} (hparam : o.param = o'.param) (hklen : o.klen = o'.klen)
    (hxlen : o.xlen = o'.xlen) : decodeParams a o = decodeParams a o' := by
  cases a <;> simp [decodeParams, hparam, hklen, hxlen]

/-- The fields that INIT takes from a HASH (R107, R110), with a slot number. -/
abbrev initFields (ctx : BitVec 3) (o : Operands) : Operands :=
  { ctx := ctx, param := o.param, klen := o.klen, aux := o.aux, xlen := o.xlen }

/-- Of the fields that INIT uses, HASH reserves no more than INIT does. -/
theorem not_reservedFails_initFields {alg : BitVec 5} {o : Operands} (h : ¬reservedFails 0x01#8 alg o)
    (ctx : BitVec 3) : ¬reservedFails 0x03#8 alg (initFields ctx o) := by
  have halg : ¬algReserved alg (initFields ctx o) := by
    simp only [reservedFails, true_or, if_true, not_or] at h
    exact h.2.2.2
  simpa [reservedFails] using halg

/-! ### One HASH -/

section Hash

variable {c : Alg × (Operands → Instr)} {o : Operands} {s : State}

/-- The effect of a HASH whose checks pass, on raw fields (R140). -/
theorem effectOf_hash_of_passes (hc : c ∈ hashCommands) (hr : ¬reservedFails 0x01#8 (algCode c.1) o)
    (hp : ¬paramFails 0x01#8 (algCode c.1) o) (hrange : hashInRange (algCode c.1) o s) :
    effectOf (c.2 o) s = .ok { store := some (o.dst.toNat, messageDigest c.1 o s) } :=
  (effectOf_hashCommand o s hc).trans
    (hashEffect_of_passes (fieldFault_of_passes (op := .hash) (a := some c.1) rfl hr hp) hrange)

/-- A HASH whose checks pass leaves its digest at DST. -/
theorem exec_hash_memRead (hc : c ∈ hashCommands) (hwf : Memory.wf s.dmem = true)
    (hr : ¬reservedFails 0x01#8 (algCode c.1) o) (hp : ¬paramFails 0x01#8 (algCode c.1) o)
    (hrange : hashInRange (algCode c.1) o s) :
    ∃ t, exec (c.2 o) s = .next t ∧
      t.memRead o.dst.toNat (outBytes (algCode c.1) o) = messageDigest c.1 o s := by
  refine ⟨_, exec_of_ok (effectOf_hash_of_passes hc hr hp hrange), ?_⟩
  rw [← length_digest_of_passes hp]
  exact memRead_commit_store hwf rfl

end Hash

/-- The HASH and VERIFY of a digest algorithm are in the lists of their operations. -/
theorem mem_commands_of_verifyAndHash {c : Alg × (Operands → Instr) × (Operands → Instr)}
    (hc : c ∈ verifyAndHash) : (c.1, c.2.1) ∈ verifyCommands ∧ (c.1, c.2.2) ∈ hashCommands := by
  unfold verifyAndHash at hc
  repeat
    rcases List.mem_cons.1 hc with rfl | hc
    · exact ⟨by simp [verifyCommands], by simp [hashCommands]⟩
  cases hc

/-! ### The commands of a streaming algorithm -/

theorem mem_commands_of_streaming {c : Streaming} (hc : c ∈ streaming) :
    (c.alg, c.hash) ∈ hashCommands ∧ (c.alg, c.init) ∈ initCommands ∧
      (c.alg, c.update) ∈ updateCommands ∧ (c.alg, c.final) ∈ finalCommands := by
  unfold streaming at hc
  repeat
    rcases List.mem_cons.1 hc with rfl | hc
    · exact ⟨by simp [hashCommands], by simp [initCommands], by simp [updateCommands], by simp [finalCommands]⟩
  cases hc

theorem execAll_cons {i : Instr} {is : List Instr} {s t : State} (h : exec i s = .next t) :
    execAll (i :: is) s = execAll is t := by
  rw [execAll, h]

/-- `t` differs from `s`, as far as a streaming command looks, in slot `ctx` alone, which holds `c`. -/
structure HoldsSlot (s t : State) (ctx : BitVec 3) (c : Slot) : Prop where
  memSize_eq : t.memSize = s.memSize
  dmem_eq : t.dmem = s.dmem
  err_eq : t.err = s.err
  slot_eq : t.slot ctx = c

section Streaming

variable {s t : State} {ctx : BitVec 3} {c : Slot}

theorem inRange_of_memSize_eq (hsize : t.memSize = s.memSize) {x n : Nat} (hr : InRange s x n) :
    InRange t x n := by
  unfold InRange at hr ⊢
  rwa [hsize]

theorem HoldsSlot.inRange (h : HoldsSlot s t ctx c) {x n : Nat} (hr : InRange s x n) : InRange t x n :=
  inRange_of_memSize_eq h.memSize_eq hr

theorem HoldsSlot.memRead (h : HoldsSlot s t ctx c) (x n : Nat) : t.memRead x n = s.memRead x n := by
  rw [State.memRead, State.memRead, h.dmem_eq]

/-- A command that only writes slot `ctx`. -/
theorem HoldsSlot.commit_slot (hmem : t.memSize = s.memSize) (hdmem : t.dmem = s.dmem) (herr : t.err = s.err)
    (c : Slot) : HoldsSlot s (t.commit { slot := some (ctx, c) }) ctx c :=
  ⟨hmem, hdmem, herr, (slot_commit_some rfl ctx).trans (if_pos rfl)⟩

/-- INIT with the fields of a HASH leaves the fresh slot (R142). -/
theorem exec_init_of_hash {i : Alg × (Operands → Instr)} (hi : i ∈ initCommands) {o : Operands}
    (hr : ¬reservedFails 0x01#8 (algCode i.1) o) (hp : ¬paramFails 0x01#8 (algCode i.1) o)
    (hrange : InRange s o.aux.toNat (auxBytes (algCode i.1) o)) (ctx : BitVec 3) :
    ∃ t, exec (i.2 (initFields ctx o)) s = .next t ∧ HoldsSlot s t ctx (freshSlot i.1 o s) := by
  have hreserved := not_reservedFails_initFields hr ctx
  have hfield := fieldFault_of_passes (op := .init) (a := some i.1) rfl hreserved hp
  exact ⟨_, exec_of_ok ((effectOf_initCommand _ s hi).trans (initEffect_of_passes hfield hrange)),
    .commit_slot rfl rfl rfl _⟩

/-- UPDATE on an ACTIVE slot of its algorithm appends its piece (R143). -/
theorem exec_update_piece {u : Alg × (Operands → Instr)} (hu : u ∈ updateCommands) (h : HoldsSlot s t ctx c)
    (hactive : c.state = .active) (halg : c.alg = u.1) {q : Word × Word}
    (hrange : InRange s q.1.toNat q.2.toNat) (hlen : c.msg.length + q.2.toNat ≤ Config.maxTotal) :
    ∃ v, exec (u.2 { ctx := ctx, src := q.1, len := q.2 }) t = .next v ∧
      HoldsSlot s v ctx (c.absorb (s.memRead q.1.toNat q.2.toNat)) := by
  have hfield : fieldFault .update (some u.1) { ctx := ctx, src := q.1, len := q.2 } = none :=
    fieldFault_of_passes (op := .update) (a := some u.1) rfl (by simp [reservedFails, opCode])
      (by simp [paramFails, opCode])
  have hslot : slotFault u.1 (t.slot ctx) = none := slotFault_eq_none.2 (by simp [h.slot_eq, hactive, halg])
  have heff := (effectOf_updateCommand _ t hu).trans
    (updateEffect_of_passes hfield hslot (h.inRange hrange) (by rw [h.slot_eq]; exact hlen))
  refine ⟨_, exec_of_ok heff, ?_⟩
  rw [h.memRead, h.slot_eq]
  exact .commit_slot h.memSize_eq h.dmem_eq h.err_eq _

/-- The message that pieces of DMEM make up. -/
abbrev piecesOf (s : State) (pieces : List (Word × Word)) : Bytes :=
  pieces.flatMap fun q => s.memRead q.1.toNat q.2.toNat

theorem Slot.absorb_nil (c : Slot) : c.absorb [] = c := by
  rw [Slot.absorb, List.append_nil]

theorem Slot.absorb_absorb (c : Slot) (x y : Bytes) : (c.absorb x).absorb y = c.absorb (x ++ y) := by
  rw [Slot.absorb, Slot.absorb, List.append_assoc]

/-- A run of UPDATEs appends the pieces in order, by induction on the pieces (R149). -/
theorem execAll_updates {u : Alg × (Operands → Instr)} (hu : u ∈ updateCommands)
    (pieces : List (Word × Word)) (h : HoldsSlot s t ctx c) (hactive : c.state = .active) (halg : c.alg = u.1)
    (hrange : ∀ q ∈ pieces, InRange s q.1.toNat q.2.toNat)
    (hlen : c.msg.length + (piecesOf s pieces).length ≤ Config.maxTotal) (rest : List Instr) :
    ∃ v, HoldsSlot s v ctx (c.absorb (piecesOf s pieces)) ∧
      execAll (pieces.map (fun q => u.2 { ctx := ctx, src := q.1, len := q.2 }) ++ rest) t =
        execAll rest v := by
  induction pieces generalizing t c with
  | nil => exact ⟨t, by rwa [piecesOf, List.flatMap_nil, Slot.absorb_nil], rfl⟩
  | cons q pieces ih =>
    have hsplit : (piecesOf s (q :: pieces)).length = q.2.toNat + (piecesOf s pieces).length := by simp
    obtain ⟨v, hexec, hv⟩ := exec_update_piece hu h hactive halg (hrange q (by simp)) (by omega)
    obtain ⟨w, hw, hrun⟩ := ih hv hactive halg (fun p hp => hrange p (by simp [hp]))
      (by rw [List.length_append, State.length_memRead]; omega)
    refine ⟨w, by rwa [piecesOf, List.flatMap_cons, ← Slot.absorb_absorb], ?_⟩
    rw [List.map_cons, List.cons_append, execAll_cons hexec, hrun]

/-- FINAL stores the digest of the slot it finds, and finalizes it (R144). -/
theorem exec_final_slot {f : Alg × (Operands → Instr)} (hf : f ∈ finalCommands) (h : HoldsSlot s t ctx c)
    (hactive : c.state = .active) (halg : c.alg = f.1) {dst : Word}
    (hrange : InRange s dst.toNat (outLen c.alg c.prm)) :
    ∃ v, exec (f.2 { ctx := ctx, dst := dst }) t = .next v ∧ v.err = s.err ∧
      v.dmem = Memory.writeBytes s.dmem dst.toNat (digest f.1 c.prm c.aux c.msg) ∧
      (v.slot ctx).state = .finalized := by
  have hfield : fieldFault .final (some f.1) { ctx := ctx, dst := dst } = none :=
    fieldFault_of_passes (op := .final) (a := some f.1) rfl (by simp [reservedFails, opCode])
      (by simp [paramFails, opCode])
  have hslot : slotFault f.1 (t.slot ctx) = none := slotFault_eq_none.2 (by simp [h.slot_eq, hactive, halg])
  have hfinal : finalInRange { ctx := ctx, dst := dst } t := by
    rw [finalInRange, h.slot_eq]
    exact h.inRange hrange
  have heff := (effectOf_finalCommand _ t hf).trans (finalEffect_of_passes hfield hslot hfinal)
  refine ⟨_, exec_of_ok heff, h.err_eq, ?_, ?_⟩
  · simp only [commit_dmem, Memory.storeOpt, h.dmem_eq, h.slot_eq]
  · rw [slot_commit_some rfl ctx, if_pos rfl]

end Streaming

end Sys2Proof.Machine
end

section
/-! The statements about streaming and determinism (40_common.md R149, R150). -/

namespace Sys2Proof.Proofs

open Machine Claims

/-- Settles O29: the slot carries the message from INIT to FINAL, and the pieces together are the bytes that HASH
reads, fewer than 2^32. -/
theorem streamingEquivalence : Obligations.StreamingEquivalence := by
  intro c hc s ctx param klen aux xlen src len dst pieces o hr hp hrange hpieces hmsg
  obtain ⟨hhash, hinit, hupdate, hfinal⟩ := mem_commands_of_streaming hc
  have hmsg : s.memRead src.toNat len.toNat = piecesOf s pieces := hmsg
  have ⟨_, haux, hdst⟩ := hrange
  have hlen : (piecesOf s pieces).length ≤ Config.maxTotal := by
    have hbound : len.toNat < 2 ^ 32 := len.isLt
    rw [← hmsg, State.length_memRead, Config.maxTotal]
    omega
  obtain ⟨s₁, hrun₁, h₁⟩ := exec_init_of_hash hinit hr hp haux ctx
  obtain ⟨s₂, h₂, hrun₂⟩ := execAll_updates hupdate pieces h₁ rfl rfl hpieces (by simpa using hlen)
    [c.final { ctx := ctx, dst := dst }]
  obtain ⟨u, hrun₃, herr, hdmem, hslot⟩ := exec_final_slot hfinal h₂ rfl rfl (dst := dst)
    (by rw [outLen_decodeParams]; exact hdst)
  refine ⟨_, u, exec_of_ok (effectOf_hash_of_passes hhash hr hp hrange), ?_, rfl, herr, ?_, hslot⟩
  · rw [List.cons_append, execAll_cons hrun₁, hrun₂, execAll_cons hrun₃]
    rfl
  · rw [hdmem, commit_dmem, messageDigest, hmsg]
    rfl

/-- Settles O30: equal fields give equal parameters and lengths, and VERIFY compares the digest that HASH
stores. -/
theorem digestDeterminism : Obligations.DigestDeterminism := by
  refine ⟨fun c hc o o' s s' hwf hwf' hpass hparam hklen hxlen hmsg haux => ?_,
    fun c hc o s hwf hr hp hrange => ?_⟩
  · obtain ⟨hr, hp, hrange⟩ := hpass (o, s) (by simp)
    obtain ⟨hr', hp', hrange'⟩ := hpass (o', s') (by simp)
    obtain ⟨t, hexec, hout⟩ := exec_hash_memRead hc hwf hr hp hrange
    obtain ⟨t', hexec', hout'⟩ := exec_hash_memRead hc hwf' hr' hp' hrange'
    refine ⟨t, t', hexec, hexec', ?_⟩
    rw [hout, hout', messageDigest, messageDigest, decodeParams_congr hparam hklen hxlen, haux, hmsg]
  · obtain ⟨hverify, hhash⟩ := mem_commands_of_verifyAndHash hc
    obtain ⟨u, hexec, hout⟩ := exec_hash_memRead hhash hwf hr hp hrange
    have hfield := fieldFault_of_passes (op := .verify) (a := some c.1) rfl hr hp
    have heff := (effectOf_verifyCommand o s hverify).trans (verifyEffect_of_passes hfield hrange)
    refine ⟨_, u, exec_of_ok heff, hexec, ?_⟩
    rw [hout]
    exact decide_eq_true_iff

end Sys2Proof.Proofs
end

section
/-! The Merkle–Damgård padding and iteration (40_common.md R151 to R153): how many zero bytes fill the last block,
and one more block at the end of whole blocks. -/

namespace Sys2Proof.Machine

/-! ### The length of the padding -/

section Padding

variable {n B L : Nat}

/-- The zeros depend on what the message leaves in its last block. -/
theorem mdZeros_eq (n B L : Nat) : mdZeros n B L = (B - (n % B + 1 + L) % B) % B := by
  simp [mdZeros, Nat.add_assoc]

/-- The 0x80 byte and the length fit behind the rest of the message: the zeros fill one block. -/
theorem mdZeros_of_fits (h : n % B < B - L) : n % B + 1 + mdZeros n B L + L = B := by
  rw [mdZeros_eq]
  generalize n % B = r at h ⊢
  rcases Nat.lt_or_ge (r + 1 + L) B with hlt | hge
  · rw [Nat.mod_eq_of_lt hlt, Nat.mod_eq_of_lt (by omega)]
    omega
  · rw [show r + 1 + L = B by omega, Nat.mod_self, Nat.sub_zero, Nat.mod_self]
    omega

/-- They do not fit: the zeros fill a second block. -/
theorem mdZeros_of_overflows (hL : L < B) (h : ¬n % B < B - L) : n % B + 1 + mdZeros n B L + L = 2 * B := by
  have hrest : n % B < B := Nat.mod_lt n (by omega)
  rw [mdZeros_eq]
  generalize n % B = r at h hrest ⊢
  rw [Nat.mod_eq_sub_mod (a := r + 1 + L) (by omega), Nat.mod_eq_of_lt (a := r + 1 + L - B) (by omega),
    Nat.mod_eq_of_lt (by omega)]
  omega

/-- The length of a padded message: one block more than the whole blocks of the message, or two (R152). -/
theorem length_padding (hL : L < B) :
    n + 1 + mdZeros n B L + L = B * (n / B + (if n % B < B - L then 1 else 2)) := by
  have hdiv := Nat.div_add_mod n B
  rw [Nat.mul_add]
  split
  next h =>
    have hfill := mdZeros_of_fits h
    omega
  next h =>
    have hfill := mdZeros_of_overflows hL h
    omega

theorem mdZeros_lt (hB : 0 < B) : mdZeros n B L < B := Nat.mod_lt _ hB

/-- No smaller number of zeros ends at a block boundary (R151). -/
theorem mdZeros_least (hL : L < B) {j : Nat} (hj : j < mdZeros n B L) : (n + 1 + j + L) % B ≠ 0 := by
  intro hzero
  have hlt : mdZeros n B L < B := mdZeros_lt (by omega)
  have hdvd : B ∣ n + 1 + mdZeros n B L + L := ⟨_, length_padding hL⟩
  have hgap : B ∣ mdZeros n B L - j := by
    have hsub := Nat.dvd_sub hdvd (Nat.dvd_of_mod_eq_zero hzero)
    rwa [show n + 1 + mdZeros n B L + L - (n + 1 + j + L) = mdZeros n B L - j by omega] at hsub
  have hle := Nat.le_of_dvd (by omega) hgap
  omega

end Padding

/-! ### The length field -/

/-- The length field of a padded message of `n` bytes (R151). -/
def mdLengthField (n L : Nat) : ByteOrder → Bytes
  | .little => natBytesLE L (8 * n)
  | .big => (natBytesLE L (8 * n)).reverse

theorem mdPad_eq (m : Bytes) (B L : Nat) (order : ByteOrder) :
    mdPad m B L order = m ++ [0x80#8] ++ zeros (mdZeros m.length B L) ++ mdLengthField m.length L order := by
  cases order <;> rfl

@[simp] theorem length_mdLengthField (n L : Nat) (order : ByteOrder) : (mdLengthField n L order).length = L := by
  cases order <;> simp [mdLengthField]

/-- Read in its byte order, the length field is the number of bits. -/
theorem natLE_mdLengthField {n L : Nat} (h : 8 * n < 256 ^ L) (order : ByteOrder) :
    natLE (if order = .little then mdLengthField n L order else (mdLengthField n L order).reverse) = 8 * n := by
  have hbits : natLE (natBytesLE L (8 * n)) = 8 * n := by rw [natLE_natBytesLE, Nat.mod_eq_of_lt h]
  cases order
  · exact hbits
  · rw [if_neg (by decide), mdLengthField, List.reverse_reverse, hbits]

theorem length_mdPad (m : Bytes) (B L : Nat) (order : ByteOrder) :
    (mdPad m B L order).length = m.length + 1 + mdZeros m.length B L + L := by
  simp only [mdPad_eq, List.length_append, List.length_singleton, length_zeros, length_mdLengthField]

/-! ### The iteration -/

theorem mdIterate_nil {σ : Type} (C : σ → Bytes → σ) (B : Nat) (h0 : σ) : mdIterate C B h0 [] = h0 := by
  rw [mdIterate, List.length_nil, Nat.zero_div]
  rfl

/-- The last block is compressed last (R153). -/
theorem mdIterate_append {σ : Type} (C : σ → Bytes → σ) {B : Nat} (h0 : σ) (hB : 0 < B) {P blk : Bytes}
    (hP : P.length % B = 0) (hblk : blk.length = B) :
    mdIterate C B h0 (P ++ blk) = C (mdIterate C B h0 P) blk := by
  have hwhole : P.length = P.length / B * B := (Nat.div_mul_cancel (Nat.dvd_of_mod_eq_zero hP)).symm
  have hcount : (P ++ blk).length / B = P.length / B + 1 := by
    rw [List.length_append, hblk, Nat.add_div_right _ hB]
  rw [mdIterate, hcount, blocks_append B P blk _ hwhole hblk, List.foldl_append]
  rfl

end Sys2Proof.Machine
end

section
/-! The statements about the Merkle–Damgård construction (40_common.md R151 to R153). -/

namespace Sys2Proof.Proofs

open Machine Claims

/-- Settles O31: the padded length is a whole number of blocks, and fewer zeros miss the boundary. -/
theorem mdPadding : Obligations.MdPadding := by
  intro m B L order hL hbits
  have hlen := length_padding (n := m.length) hL
  refine ⟨⟨_, _, mdPad_eq m B L order, length_mdLengthField _ _ _, natLE_mdLengthField hbits order, ?_,
    fun j hj => mdZeros_least hL hj⟩, ?_⟩
  · rw [hlen, Nat.mul_mod_right]
  · rw [length_mdPad, hlen]

/-- Settles O32: a block at the end is compressed last, and the four hashes serialise the last state. -/
theorem mdIteration : Obligations.MdIteration := by
  refine ⟨fun σ C B h0 hB => ⟨mdIterate_nil C B h0, fun P blk => mdIterate_append C h0 hB⟩,
    fun m => ⟨?md5, ?sha1, rfl, rfl⟩⟩
  case md5 => simp [md5]
  case sha1 => simp [sha1]

end Sys2Proof.Proofs
end

section
/-! The primitives (48_primitives.md R390 to R394): the bytes a rotation, a byte swap or a product gives, and two
primitives one after the other. -/

namespace Sys2Proof.Machine

open Claims

/-! ### Rotated bytes -/

/-- A left rotation continued to the full width is the identity. -/
theorem rotl_rotl_cancel {w r : Nat} (x : BitVec w) (h0 : 0 < r) (hr : r < w) : rotl (rotl x r) (w - r) = x := by
  apply BitVec.eq_of_getLsbD_eq
  intro i hi
  have hmod : ((i + w - (w - r)) % w + w - r) % w = i := by
    rw [show i + w - (w - r) = i + r by omega]
    rcases Nat.lt_or_ge (i + r) w with hlt | hge
    · rw [Nat.mod_eq_of_lt hlt, show i + r + w - r = i + w by omega, Nat.add_mod_right, Nat.mod_eq_of_lt hi]
    · rw [Nat.mod_eq_sub_mod hge, Nat.mod_eq_of_lt (a := i + r - w) (by omega),
        show i + r - w + w - r = i by omega, Nat.mod_eq_of_lt hi]
  rw [getLsbD_rotl _ (by omega), getLsbD_rotl _ hr, hmod, decide_eq_true hi,
    decide_eq_true (Nat.mod_lt _ (by omega)), Bool.true_and, Bool.true_and]

theorem rotr_rotl {w r : Nat} (x : BitVec w) (hr : r < w) : rotr (rotl x r) r = x := by
  rcases Nat.eq_zero_or_pos r with rfl | h0
  · rw [rotr_zero, rotl_zero]
  · rw [rotr_eq_rotl _ h0 hr, rotl_rotl_cancel x h0 hr]

/-- A byte string rotated as one word of `w` bits (R390, R391). -/
def rotatedBytes (rot : {w : Nat} → BitVec w → Nat → BitVec w) (w r : Nat) (bs : Bytes) : Bytes :=
  bytesLE (rot (readLE w bs 0) r)

@[simp] theorem length_rotatedBytes (rot : {w : Nat} → BitVec w → Nat → BitVec w) (w r : Nat) (bs : Bytes) :
    (rotatedBytes rot w r bs).length = w / 8 := length_bytesLE _

section Rotated

variable {w r : Nat} {bs : Bytes}

theorem rotatedBytes_rotl (hbs : bs.length = w / 8) (hr : r < w) :
    rotatedBytes rotl w r bs = natBytesLE (w / 8) ((BitVec.ofNat w (natLE bs)).rotateLeft r).toNat := by
  rw [rotatedBytes, readLE_whole hbs, rotl_eq_rotateLeft _ hr, bytesLE]

theorem rotatedBytes_rotr (hbs : bs.length = w / 8) (hr : r < w) :
    rotatedBytes rotr w r bs = natBytesLE (w / 8) ((BitVec.ofNat w (natLE bs)).rotateRight r).toNat := by
  rw [rotatedBytes, readLE_whole hbs, rotr_eq_rotateRight _ hr, bytesLE]

/-- A rotation to the right goes to the left by the rest of the width (R391). -/
theorem rotatedBytes_rotr_eq_rotl (h0 : 0 < r) (hr : r < w) :
    rotatedBytes rotr w r bs = rotatedBytes rotl w (w - r) bs := by
  rw [rotatedBytes, rotr_eq_rotl _ h0 hr, rotatedBytes]

theorem rotatedBytes_rotr_zero (hw : w % 8 = 0) (hbs : bs.length = w / 8) : rotatedBytes rotr w 0 bs = bs := by
  rw [rotatedBytes, rotr_zero, bytesLE_readLE hw hbs]

/-- ROTR undoes ROTL (R394). -/
theorem rotatedBytes_rotr_rotl (hw : w % 8 = 0) (hbs : bs.length = w / 8) (hr : r < w) :
    rotatedBytes rotr w r (rotatedBytes rotl w r bs) = bs := by
  rw [rotatedBytes, rotatedBytes, readLE_bytesLE hw, rotr_rotl _ hr, bytesLE_readLE hw hbs]

end Rotated

/-- Every operand width is a whole number of bytes (R114). -/
theorem width_mod_eight (o : Operands) : width o % 8 = 0 := by
  unfold width
  grind

/-! ### The product -/

/-- Two operands of 16 bytes have a product of at most 32, so none of it is lost (R393). -/
theorem bytesLE_mul128Product {x y : Bytes} (hx : x.length = 16) (hy : y.length = 16) :
    bytesLE (mul128Product x y) = natBytesLE 32 (natLE x * natLE y) := by
  have hxlt : natLE x < 2 ^ 128 := by simpa [hx] using natLE_lt x
  have hylt : natLE y < 2 ^ 128 := by simpa [hy] using natLE_lt y
  have hprod : natLE x * natLE y < 2 ^ 256 :=
    calc natLE x * natLE y < 2 ^ 128 * 2 ^ 128 := Nat.mul_lt_mul'' hxlt hylt
      _ = 2 ^ 256 := by rw [← Nat.pow_add]
  have hword {z : Bytes} (hz : z.length = 16) (hlt : natLE z < 2 ^ 128) :
      ((readLE 128 z 0).setWidth 256).toNat = natLE z := by
    rw [readLE_whole hz, BitVec.toNat_setWidth_of_le (by decide), BitVec.toNat_ofNat, Nat.mod_eq_of_lt hlt]
  rw [bytesLE, mul128Product, BitVec.toNat_mul, hword hx hxlt, hword hy hylt, Nat.mod_eq_of_lt hprod]

/-- The first bytes of a number are its low bytes. -/
theorem take_natBytesLE {k n : Nat} (h : k ≤ n) (v : Nat) : (natBytesLE n v).take k = natBytesLE k v := by
  induction k generalizing n v with
  | zero => rfl
  | succ k ih =>
    obtain ⟨n, rfl⟩ : ∃ m, n = m + 1 := ⟨n - 1, by omega⟩
    rw [natBytesLE, List.take_succ_cons, ih (by omega), natBytesLE]

theorem take_memRead {k n : Nat} (h : k ≤ n) (s : State) (a : Nat) : (s.memRead a n).take k = s.memRead a k := by
  apply List.ext_getElem
  · simp [h]
  · intro i _ _
    simp [State.memRead, Memory.getElem_readBytes]

/-! ### The effect of a primitive whose checks pass, in the terms of the statements -/

section Passing

variable {o : Operands} {s : State}

/-- The operand ranges of a primitive of the operand's width (R390 to R392). -/
abbrev operandsInRange (o : Operands) (s : State) : Prop :=
  InRange s o.src.toNat (width o / 8) ∧ InRange s o.dst.toNat (width o / 8)

theorem rotateEffect_of_passes {op : Op} {rot : {w : Nat} → BitVec w → Nat → BitVec w}
    (hfield : fieldFault op none o = none) (hrange : operandsInRange o s) :
    rotateEffect op rot o s = .ok { store := some (o.dst.toNat,
      rotatedBytes rot (width o) (amount o) (s.memRead o.src.toNat (width o / 8))) } := by
  refine rotateEffect_ok.2 ⟨hfield, (primRanges_iff_inRange o s).2 hrange, ?_⟩
  rw [opBytes, opWidth_eq_width]
  rfl

theorem bswapEffect_of_passes (hfield : fieldFault .bswap none o = none) (hrange : operandsInRange o s) :
    bswapEffect o s =
      .ok { store := some (o.dst.toNat, (s.memRead o.src.toNat (width o / 8)).reverse) } :=
  bswapEffect_ok.2 ⟨hfield, (primRanges_iff_inRange o s).2 hrange, by rw [opBytes, opWidth_eq_width]⟩

theorem mul128Effect_of_passes (hfield : fieldFault .mul128 none o = none) (hsrc : InRange s o.src.toNat 16)
    (haux : InRange s o.aux.toNat 16) (hdst : InRange s o.dst.toNat 32) :
    mul128Effect o s = .ok { store := some (o.dst.toNat,
      natBytesLE 32 (natLE (s.memRead o.src.toNat 16) * natLE (s.memRead o.aux.toNat 16))) } :=
  mul128Effect_ok.2 ⟨hfield, inRange_iff.2 hsrc, inRange_iff.2 haux, inRange_iff.2 hdst,
    by rw [bytesLE_mul128Product (by simp) (by simp)]⟩

end Passing

/-! ### The checks of a primitive -/

section Checks

variable {i : Instr} {op : Op} {o : Operands} {s : State} {param done : Prop}

/-- The three checks of a primitive on one operand (R390 to R392). -/
theorem checked_primitive (hop : op.isHashOp = false) (hp : paramBad op none o = true ↔ param)
    (herr : errorOf (effectOf i s) = (fieldFault op none o).or (rangeFault (primRanges o s (opBytes o))))
    (hdone : fieldFault op none o = none → ¬param → operandsInRange o s → done) :
    Checked i s [(0x05#8, reservedFails (opCode op) 0 o), (0x06#8, param), (0x0A#8, ¬operandsInRange o s)]
      done := by
  have herr := errorOf_eq_iff.1 herr
  refine checked_fields (reservedBad_iff (a := none) hop.symm o) hp
    (fun c hc => (herr c).2 (by rw [hc, Option.some_or])) fun hfield => ?_
  have hparam : ¬param := mt hp.2 (Bool.eq_false_iff.1 (fieldFault_eq_none.1 hfield).2)
  refine checked_range (primRanges_iff_inRange o s)
    (fun hr => (herr .range).2 (by rw [hfield, hr]; rfl)) fun hrange => checked_nil ?_
  exact hdone hfield hparam hrange

/-- The two rotations by the rotation they apply (R390, R391). -/
theorem checked_rotate {rot : {w : Nat} → BitVec w → Nat → BitVec w} (hop : op = .rotl ∨ op = .rotr)
    (heff : effectOf i s = rotateEffect op rot o s) (hwf : Memory.wf s.dmem = true)
    (hdone : amount o < width o →
      Stores i s o.dst.toNat
        (rotatedBytes rot (width o) (amount o) (s.memRead o.src.toNat (width o / 8))) → done) :
    Checked i s
      [(0x05#8, reservedFails (opCode op) 0 o), (0x06#8, width o ≤ amount o), (0x0A#8, ¬operandsInRange o s)]
      done := by
  have hplain : op.isHashOp = false := by rcases hop with rfl | rfl <;> rfl
  have hparam : paramBad op none o = true ↔ width o ≤ amount o := by
    rcases hop with rfl | rfl <;> simp [paramBad, opWidth_eq_width, rotAmount, amount]
  refine checked_primitive hplain hparam (by rw [heff, errorOf_rotateEffect]) fun hfield hamount hrange => ?_
  exact hdone (Nat.not_le.1 hamount)
    (stores_of_effect hwf (heff.trans (rotateEffect_of_passes hfield hrange)))

end Checks

/-! ### Two primitives one after the other -/

/-- The state after a command that stored `bs` at `a` and wrote nothing else. -/
abbrev State.stored (s : State) (a : Nat) (bs : Bytes) : State := s.commit { store := some (a, bs) }

theorem memRead_stored {s : State} (hwf : Memory.wf s.dmem = true) (a : Nat) {n : Nat} {bs : Bytes}
    (hlen : bs.length = n) : (s.stored a bs).memRead a n = bs :=
  hlen ▸ memRead_commit_store hwf rfl

/-- A command that undoes another on the bytes it left brings back the bytes it read, wherever the three ranges
lie (R394). -/
theorem exec_undoes {i j : Instr} {s : State} {src mid dst n : Nat} {f g : Bytes → Bytes}
    (hwf : Memory.wf s.dmem = true)
    (hi : exec i s = .next (s.stored mid (f (s.memRead src n))))
    (hj : ∀ t : State, t.memSize = s.memSize → exec j t = .next (t.stored dst (g (t.memRead mid n))))
    (hlen : (f (s.memRead src n)).length = n) (hgf : g (f (s.memRead src n)) = s.memRead src n) :
    ∃ t u, exec i s = .next t ∧ exec j t = .next u ∧
      u.memRead dst n = s.memRead src n ∧ u.slots = s.slots := by
  refine ⟨_, _, hi, hj _ rfl, ?_, rfl⟩
  rw [memRead_stored hwf mid hlen, hgf]
  exact memRead_stored (Memory.wf_writeBytes _ _ _ hwf) dst (State.length_memRead _ _ _)

section Fields

variable {param : BitVec 8} {src dst : Word}

theorem fieldFault_rotate {op : Op} (hop : op = .rotl ∨ op = .rotr)
    (h : amount { param := param, src := src, dst := dst } < width { param := param, src := src, dst := dst }) :
    fieldFault op none { param := param, src := src, dst := dst } = none := by
  have hplain : (none : Option Alg).isSome = op.isHashOp := by rcases hop with rfl | rfl <;> rfl
  refine fieldFault_of_passes hplain ?_ ?_
  · rcases hop with rfl | rfl <;> simp [reservedFails, opCode, algField]
  · rcases hop with rfl | rfl <;> simpa [paramFails, opCode] using h

theorem fieldFault_bswap (hamount : amount { param := param, src := src, dst := dst } = 0)
    (hwidth : 8 < width { param := param, src := src, dst := dst }) :
    fieldFault .bswap none { param := param, src := src, dst := dst } = none := by
  have hlow : param.toNat % 64 = 0 := hamount
  refine fieldFault_of_passes rfl ?_ ?_
  · simp [reservedFails, opCode, algField, hlow]
  · simpa [paramFails, opCode] using Nat.ne_of_gt hwidth

theorem fieldFault_mul128 {aux : Word} :
    fieldFault .mul128 none { src := src, aux := aux, dst := dst } = none :=
  fieldFault_of_passes rfl (by simp [reservedFails, opCode, algField]) (by simp [paramFails, opCode])

end Fields

end Sys2Proof.Machine
end

section
/-! The statements about the primitives (48_primitives.md). -/

namespace Sys2Proof.Proofs

open Machine Claims

/-- Settles O39. -/
theorem rotlRule : Obligations.RotlRule := by
  refine ⟨rejectsAnyAlg (op := .rotl) rfl, fun o s hwf => ?_⟩
  refine checked_rotate (op := .rotl) (rot := rotl) (.inl rfl) rfl hwf fun hamount hstores => ?_
  rwa [rotatedBytes_rotl (State.length_memRead _ _ _) hamount] at hstores

/-- Settles O40: the three forms of the result are the same bytes. -/
theorem rotrRule : Obligations.RotrRule := by
  refine ⟨rejectsAnyAlg (op := .rotr) rfl, fun o s hwf => ?_⟩
  refine checked_rotate (op := .rotr) (rot := rotr) (.inr rfl) rfl hwf fun hamount hstores => ?_
  have hlen : (s.memRead o.src.toNat (width o / 8)).length = width o / 8 := State.length_memRead _ _ _
  refine ⟨?right, fun hpos => ?left, fun hzero => ?copy⟩
  case right => rwa [rotatedBytes_rotr hlen hamount] at hstores
  case left =>
    rwa [rotatedBytes_rotr_eq_rotl hpos hamount, rotatedBytes_rotl hlen (by omega)] at hstores
  case copy => rwa [hzero, rotatedBytes_rotr_zero (width_mod_eight o) hlen] at hstores

/-- Settles O41. -/
theorem bswapRule : Obligations.BswapRule := by
  refine ⟨rejectsAnyAlg (op := .bswap) rfl, fun o s hwf => ?_⟩
  exact checked_primitive (op := .bswap) rfl (paramBad_iff (op := .bswap) (a := none) rfl o)
    (errorOf_bswapEffect o s)
    fun hfield _ hrange => stores_of_effect hwf (bswapEffect_of_passes hfield hrange)

/-- Settles O42: a product of two numbers of 16 bytes fits in 32. -/
theorem mul128Rule : Obligations.Mul128Rule := by
  refine ⟨rejectsAnyAlg (op := .mul128) rfl, fun o s hwf => ?_⟩
  refine checked_reserved (op := .mul128) (a := none) (reservedBad_iff rfl o) rfl
    (fun c hc => mul128Effect_error.2 (.inl hc)) fun hfield => ?_
  refine checked_range
    (ok := s.inRange o.src.toNat 16 && s.inRange o.aux.toNat 16 && s.inRange o.dst.toNat 32)
    (by simp [inRange_iff, and_assoc]) (fun hr => mul128Effect_error.2 (.inr ⟨hfield, hr, rfl⟩))
    fun hrange => checked_nil ?_
  obtain ⟨hsrc, haux, hdst⟩ := hrange
  exact stores_of_effect hwf (mul128Effect_of_passes hfield hsrc haux hdst)

/-- Settles O43: the second command reads the bytes that the first one stored; the product is that of numbers,
whose low 16 bytes are the first ones stored. -/
theorem primitiveLaws : Obligations.PrimitiveLaws := by
  refine ⟨?rotate, ?swap, ?product⟩
  case rotate =>
    intro s param src mid dst hwf o o' n hamount hsrc hmid hdst
    have hlen : (s.memRead src.toNat n).length = n := State.length_memRead _ _ _
    refine exec_undoes (mid := mid.toNat) (f := rotatedBytes rotl (width o) (amount o))
      (g := rotatedBytes rotr (width o) (amount o)) hwf ?_ (fun t ht => ?_) (length_rotatedBytes _ _ _ _)
      (rotatedBytes_rotr_rotl (width_mod_eight o) hlen hamount)
    · exact exec_of_ok (rotateEffect_of_passes (fieldFault_rotate (.inl rfl) hamount) ⟨hsrc, hmid⟩)
    · exact exec_of_ok (rotateEffect_of_passes (fieldFault_rotate (.inr rfl) hamount)
        ⟨inRange_of_memSize_eq ht hmid, inRange_of_memSize_eq ht hdst⟩)
  case swap =>
    intro s param src mid dst hwf o o' n hamount hwidth hsrc hmid hdst
    refine exec_undoes (mid := mid.toNat) (f := List.reverse) (g := List.reverse) hwf ?_ (fun t ht => ?_)
      (by rw [List.length_reverse, State.length_memRead]) (List.reverse_reverse _)
    · exact exec_of_ok (bswapEffect_of_passes (fieldFault_bswap hamount hwidth) ⟨hsrc, hmid⟩)
    · exact exec_of_ok (bswapEffect_of_passes (fieldFault_bswap hamount hwidth)
        ⟨inRange_of_memSize_eq ht hmid, inRange_of_memSize_eq ht hdst⟩)
  case product =>
    intro s src aux dst hwf hsrc haux hdst
    have hswapped := mul128Effect_of_passes fieldFault_mul128 haux hsrc hdst
    rw [Nat.mul_comm (natLE (s.memRead aux.toNat 16))] at hswapped
    refine ⟨_, exec_of_ok (mul128Effect_of_passes fieldFault_mul128 hsrc haux hdst), exec_of_ok hswapped,
      commit_slots _ _, ?_⟩
    rw [← take_memRead (k := 16) (n := 32) (by decide), memRead_stored hwf _ (length_natBytesLE _ _),
      take_natBytesLE (by decide), natLE_natBytesLE, show 256 ^ 16 = 2 ^ 128 by norm_num]

end Sys2Proof.Proofs
end
